-- ==== Sys2Proof/Word.lean ====
section
/-! DEFINITION. The word types of the WarmDrive core and the two floating-point formats (00_scope.md R6). -/

namespace Sys2Proof

/-- One binary32 pattern: a sample, a parameter register, a filter cell variable, a ROM word (R6, `FW`). -/
abbrev Word := BitVec 32

/-- One binary64 pattern: `BT` and `BTINC` (R6, `BTW`). -/
abbrev DWord := BitVec 64

/-- One byte of the string buffer, and one byte of the byte view of memory (R18, R30). -/
abbrev Byte := BitVec 8

/-- A sample-memory cell address: it names a whole 32-bit cell (R28). -/
abbrev CellAddr := BitVec 32

/-- A command word as presented on a port (R43). -/
abbrev Command := BitVec 128

/-- A response word (R49). -/
abbrev ResponseWord := BitVec 192

/-- An IEEE 754 interchange format: its width and the width of its fraction field (R55, R64).
The exponent field is what lies between the sign bit and the fraction. -/
structure Fmt where
  width : Nat
  frac : Nat
  deriving DecidableEq, Repr

/-- binary32: bit 31 sign, bits [30:23] exponent, bits [22:0] fraction (R55). -/
abbrev binary32 : Fmt := ⟨32, 23⟩

/-- binary64: bit 63 sign, bits [62:52] exponent, bits [51:0] fraction (R64). -/
abbrev binary64 : Fmt := ⟨64, 52⟩

end Sys2Proof
end

