-- ==== Sys2Proof/Syntax.lean ====
section
/-! DEFINITION. The operations of the core (30_encoding.md R42, R54): seven commands, eight stage operations
and one sub-operation, one constructor per row of spec/opcode_table.json. -/

namespace Sys2Proof

/-- An operation with its operands, assembled as R44 says: `id` and `n` are unsigned integers, `value` a
signed integer, `src` and `dst` cell addresses. -/
inductive Instr where
  /-- INIT (42_audio_commands.md R81) -/
  | init
  /-- RESET (R82) -/
  | reset
  /-- PROCESS `src`, `dst`, `n` (R83) -/
  | process (src dst : CellAddr) (n : Nat)
  /-- SETP `id`, `value` (41_parameter_commands.md R75) -/
  | setp (id : Nat) (value : Int)
  /-- GETP `id` (R76) -/
  | getp (id : Nat)
  /-- GETSTR `id`, `value` (R77) -/
  | getstr (id : Nat) (value : Int)
  /-- GETBMP `id`, `value` (R78) -/
  | getbmp (id : Nat) (value : Int)
  /-- slot 1 (43_sample_pipeline.md R89) -/
  | clip
  /-- slot 2 (R91) -/
  | bass1
  /-- slot 3 (R92) -/
  | bass2
  /-- slot 4 (R93) -/
  | high
  /-- slot 5 (R95) -/
  | drive
  /-- slot 6 (R96) -/
  | comp
  /-- slot 7 (R97) -/
  | wshape
  /-- slot 8 (R98) -/
  | sat
  /-- the lookup inside slot 7 (44_sine_lut.md R104) -/
  | luti
  deriving DecidableEq, Repr

end Sys2Proof
end

