-- ==== Sys2Proof/WellFormed.lean ====
section
/-! DEFINITION. Which operations a command word can spell (30_encoding.md R44): the operands fit their
fields. Cell addresses fit by their type; the stage operations have no operand. -/

namespace Sys2Proof

/-- An unsigned 8-bit parameter id. -/
def idFits (id : Nat) : Bool := decide (id < 256)

/-- A 32-bit two's-complement value. -/
def valueFits (v : Int) : Bool := decide (-2147483648 ≤ v) && decide (v ≤ 2147483647)

/-- An unsigned 32-bit frame count. -/
def countFits (n : Nat) : Bool := decide (n < 4294967296)

def Instr.wf : Instr → Bool
  | .init => true
  | .reset => true
  | .process _ _ n => countFits n
  | .setp id value => idFits id && valueFits value
  | .getp id => idFits id
  | .getstr id value => idFits id && valueFits value
  | .getbmp id value => idFits id && valueFits value
  | .clip => true
  | .bass1 => true
  | .bass2 => true
  | .high => true
  | .drive => true
  | .comp => true
  | .wshape => true
  | .sat => true
  | .luti => true

end Sys2Proof
end

