-- ==== Sys2Proof/Decode.lean ====
section
/-! DEFINITION. Command words to operations and back (30_encoding.md R43 to R47), and the labels of the
hardwired stage slots (R54). Decoding is total: what is no operation is rejected by name. -/

namespace Sys2Proof

/-- What names an operation: a command word on a port, or the label of a stage slot, which is no field of
any word the hardware sees (R54). -/
inductive Code where
  | command (w : Command)
  | label (l : BitVec 4)
  deriving DecidableEq, Repr

/-- Why a code is no operation. -/
inductive DecodeError where
  /-- the opcode is none of the seven of R45; the core answers `UNKNOWN_OP` (R46) -/
  | reservedOpcode (op : Byte)
  /-- no stage slot has this label (R54) -/
  | noSuchSlot (l : BitVec 4)
  deriving DecidableEq, Repr

/-! ### The fields of a command word (R43) -/

def opField (w : Command) : Byte := w.extractLsb' 120 8
def idField (w : Command) : Byte := w.extractLsb' 112 8
def aField (w : Command) : BitVec 32 := w.extractLsb' 64 32
def bField (w : Command) : BitVec 32 := w.extractLsb' 32 32
def cField (w : Command) : BitVec 32 := w.extractLsb' 0 32

/-- A command word from its fields; `rsv` is emitted as zero (R43, R47). -/
def commandWord (op id : Byte) (a b c : BitVec 32) : Command := op ++ id ++ 0#16 ++ a ++ b ++ c

/-! ### The opcodes (R45) -/

def opInit : Byte := 0x01#8
def opReset : Byte := 0x02#8
def opProcess : Byte := 0x03#8
def opSetp : Byte := 0x10#8
def opGetp : Byte := 0x11#8
def opGetstr : Byte := 0x12#8
def opGetbmp : Byte := 0x13#8

/-- The operation a command word spells; fields its format does not use are not looked at (R44, R45, R47). -/
def decodeCommand (w : Command) : Except DecodeError Instr :=
  let op := opField w
  let id := (idField w).toNat
  let value := (cField w).toInt
  if op = opInit then .ok .init
  else if op = opReset then .ok .reset
  else if op = opProcess then .ok (.process (aField w) (bField w) (cField w).toNat)
  else if op = opSetp then .ok (.setp id value)
  else if op = opGetp then .ok (.getp id)
  else if op = opGetstr then .ok (.getstr id value)
  else if op = opGetbmp then .ok (.getbmp id value)
  else .error (.reservedOpcode op)

/-- The stage operation of a slot label (R54). -/
def decodeLabel (l : BitVec 4) : Except DecodeError Instr :=
  match l.toNat with
  | 1 => .ok .clip
  | 2 => .ok .bass1
  | 3 => .ok .bass2
  | 4 => .ok .high
  | 5 => .ok .drive
  | 6 => .ok .comp
  | 7 => .ok .wshape
  | 8 => .ok .sat
  | 9 => .ok .luti
  | _ => .error (.noSuchSlot l)

def decode : Code → Except DecodeError Instr
  | .command w => decodeCommand w
  | .label l => decodeLabel l

/-- The code of an operation; unused fields are zero, as an assembler emits them (R43, R45, R47, R54). -/
def encode : Instr → Code
  | .init => .command (commandWord opInit 0 0 0 0)
  | .reset => .command (commandWord opReset 0 0 0 0)
  | .process src dst n => .command (commandWord opProcess 0 src dst (BitVec.ofNat 32 n))
  | .setp id v => .command (commandWord opSetp (BitVec.ofNat 8 id) 0 0 (BitVec.ofInt 32 v))
  | .getp id => .command (commandWord opGetp (BitVec.ofNat 8 id) 0 0 0)
  | .getstr id v => .command (commandWord opGetstr (BitVec.ofNat 8 id) 0 0 (BitVec.ofInt 32 v))
  | .getbmp id v => .command (commandWord opGetbmp (BitVec.ofNat 8 id) 0 0 (BitVec.ofInt 32 v))
  | .clip => .label 1
  | .bass1 => .label 2
  | .bass2 => .label 3
  | .high => .label 4
  | .drive => .label 5
  | .comp => .label 6
  | .wshape => .label 7
  | .sat => .label 8
  | .luti => .label 9

/-- The code a row of spec/opcode_table.json stands for when its bits are `w`: a stage row has a label of
at most one byte, a command row a whole command word. -/
def tableCode (nbits w : Nat) : Code :=
  if nbits ≤ 8 then .label (BitVec.ofNat 4 w) else .command (BitVec.ofNat 128 w)

/-- What the decoder reads from a row's bits, numbered as spec/opcode_table.json numbers them. -/
def decodeTableWord (nbits w : Nat) : Option Instr :=
  if nbits ≤ 8 ∧ 16 ≤ w then none
  else
    match decode (tableCode nbits w) with
    | .ok i => some i
    | .error _ => none

end Sys2Proof
end

