-- ==== Sys2Proof/Machine/Arith.lean ====
section
/-! DEFINITION. The arithmetic of 40_numerics.md: IEEE 754 binary32 and binary64, ties to even, one
rounding per operation, canonical NaN, no flags.

Every finite datum of a format is an integer multiple of the format's least positive value, its
*quantum* (2^-149 for binary32, 2^-1074 for binary64). So an operation is written as the rules say it:
the exact result, as an integer or a fraction of quanta, and one rounding at the end. -/

namespace Sys2Proof.Machine

/-! ### Fields and quanta of a pattern (R55, R64) -/

/-- The pattern of +infinity, which is also the largest magnitude that is not a NaN (R55). -/
def infMag (f : Fmt) : Nat := (2 ^ (f.width - 1 - f.frac) - 1) * 2 ^ f.frac

/-- The canonical quiet NaN (R60): `0x7FC00000`, `0x7FF8000000000000`. -/
def qnanPat (f : Fmt) : Nat := infMag f + 2 ^ (f.frac - 1)

/-- `1.0` is `2 ^ oneExp` quanta (149 for binary32, 1074 for binary64). -/
def oneExp (f : Fmt) : Nat := 2 ^ (f.width - f.frac - 2) - 2 + f.frac

/-- The sign bit of a pattern. -/
def signPat (f : Fmt) (a : Nat) : Bool := decide (2 ^ (f.width - 1) ≤ a)

/-- A pattern without its sign bit. -/
def magPat (f : Fmt) (a : Nat) : Nat := a % 2 ^ (f.width - 1)

/-- A pattern from a sign and a magnitude pattern. -/
def packPat (f : Fmt) (neg : Bool) (m : Nat) : Nat := if neg then 2 ^ (f.width - 1) + m else m

def nanPat (f : Fmt) (a : Nat) : Bool := decide (infMag f < magPat f a)

def infPat (f : Fmt) (a : Nat) : Bool := decide (magPat f a = infMag f)

/-- How many quanta a magnitude pattern stands for: a subnormal is its fraction, a normal
`(2^frac + m) × 2^(e-1)` (R55). The pattern of infinity gives the number just past the largest finite
one, so quanta also order infinities. -/
def quanta (f : Fmt) (m : Nat) : Nat :=
  if m / 2 ^ f.frac = 0 then m else (2 ^ f.frac + m % 2 ^ f.frac) * 2 ^ (m / 2 ^ f.frac - 1)

/-- The signed number of quanta of a pattern that is not a NaN. -/
def signedQuanta (f : Fmt) (a : Nat) : Int :=
  if signPat f a then -(quanta f (magPat f a) : Int) else (quanta f (magPat f a) : Int)

/-! ### Rounding (R56: roundTiesToEven, overflow to infinity; R61: gradual underflow) -/

/-- The integer nearest to `num / den`, ties to even. -/
def roundTiesToEven (num den : Nat) : Nat :=
  if 2 * (num % den) < den then num / den
  else if den < 2 * (num % den) then num / den + 1
  else num / den + num / den % 2

/-- The magnitude pattern nearest to `num / den` quanta, ties to even; infinity on overflow.
`k` is how many doublings the result's spacing lies above the quantum. -/
def roundMag (f : Fmt) (num den : Nat) : Nat :=
  let k := Nat.log2 (num / den) - f.frac
  min (infMag f) (k * 2 ^ f.frac + roundTiesToEven num (den * 2 ^ k))

/-! ### Operations on patterns of any format (R56, R64) -/

/-- `a + b`: an exact zero sum is `+0.0` unless both operands are negative zeros. -/
def addPat (f : Fmt) (a b : Nat) : Nat :=
  if nanPat f a || nanPat f b then qnanPat f
  else if infPat f a then
    if infPat f b && (signPat f a != signPat f b) then qnanPat f else a
  else if infPat f b then b
  else
    let z := signedQuanta f a + signedQuanta f b
    if z = 0 then packPat f (signPat f a && signPat f b) 0
    else packPat f (decide (z < 0)) (roundMag f z.natAbs 1)

/-- `a × b`: the sign is the exclusive-or of the operand signs; `0 × ∞` is a NaN. -/
def mulPat (f : Fmt) (a b : Nat) : Nat :=
  if nanPat f a || nanPat f b then qnanPat f
  else if infPat f a || infPat f b then
    if magPat f a = 0 ∨ magPat f b = 0 then qnanPat f
    else packPat f (signPat f a != signPat f b) (infMag f)
  else packPat f (signPat f a != signPat f b)
    (roundMag f (quanta f (magPat f a) * quanta f (magPat f b)) (2 ^ oneExp f))

/-- `a ÷ b`: `0 ÷ 0` and `∞ ÷ ∞` are NaNs, `x ÷ 0` is an infinity, `x ÷ ∞` is a zero. -/
def divPat (f : Fmt) (a b : Nat) : Nat :=
  if nanPat f a || nanPat f b then qnanPat f
  else if infPat f a then
    if infPat f b then qnanPat f else packPat f (signPat f a != signPat f b) (infMag f)
  else if infPat f b then packPat f (signPat f a != signPat f b) 0
  else if magPat f b = 0 then
    if magPat f a = 0 then qnanPat f else packPat f (signPat f a != signPat f b) (infMag f)
  else packPat f (signPat f a != signPat f b)
    (roundMag f (quanta f (magPat f a) * 2 ^ oneExp f) (quanta f (magPat f b)))

/-! ### binary32: constants (R58) -/

def posZero : Word := 0x00000000#32
def negZero : Word := 0x80000000#32
def posInf : Word := 0x7F800000#32
def negInf : Word := 0xFF800000#32
/-- R60. -/
def QNAN32 : Word := 0x7FC00000#32
def f100 : Word := 0x42C80000#32
def f50 : Word := 0x42480000#32
def f20 : Word := 0x41A00000#32
def f5 : Word := 0x40A00000#32
def f2 : Word := 0x40000000#32
def f1 : Word := 0x3F800000#32
def fm1 : Word := 0xBF800000#32
/-- The binary32 nearest 0.8. -/
def K0_8 : Word := 0x3F4CCCCD#32
/-- The binary32 nearest 0.2. -/
def K0_2 : Word := 0x3E4CCCCD#32
/-- `N − 1`. -/
def f4095 : Word := 0x457FF000#32

/-! ### binary32: classification and value -/

def isNaN (a : Word) : Bool := nanPat binary32 a.toNat
def isInf (a : Word) : Bool := infPat binary32 a.toNat
def isFinite (a : Word) : Bool := decide (magPat binary32 a.toNat < infMag binary32)
def fsign (a : Word) : Bool := signPat binary32 a.toNat
def fmag (a : Word) : Nat := magPat binary32 a.toNat
/-- The signed number of quanta (2^-149) of a pattern that is not a NaN. -/
def fquanta (a : Word) : Int := signedQuanta binary32 a.toNat
/-- The rational number a finite pattern stands for (R55). -/
def fvalue (a : Word) : ℚ := (fquanta a : ℚ) / 2 ^ 149

/-! ### binary32: the primitives (R56, R62, R65, R66) -/

def fadd (a b : Word) : Word := BitVec.ofNat 32 (addPat binary32 a.toNat b.toNat)
/-- The sign bit inverted and the other bits kept, for every pattern; not an arithmetic operation
(R56, R60). -/
def fneg (a : Word) : Word := BitVec.ofNat 32 (packPat binary32 (!fsign a) (fmag a))
/-- `a − b` is `a + (−b)`, with one rounding (R56). -/
def fsub (a b : Word) : Word := fadd a (fneg b)
def fmul (a b : Word) : Word := BitVec.ofNat 32 (mulPat binary32 a.toNat b.toNat)
def fdiv (a b : Word) : Word := BitVec.ofNat 32 (divPat binary32 a.toNat b.toNat)

/-- The largest integral value not greater than `a` (R62); a zero keeps its sign. -/
def ffloor (a : Word) : Word :=
  if isNaN a then QNAN32
  else if isInf a then a
  else
    let one := 2 ^ oneExp binary32
    let q := quanta binary32 (fmag a)
    let n := if fsign a then (q + (one - 1)) / one else q / one
    BitVec.ofNat 32 (packPat binary32 (fsign a) (roundMag binary32 (n * one) 1))

/-- Integer to binary32, ties to even (R65). -/
def i2f (v : Int) : Word :=
  BitVec.ofNat 32
    (packPat binary32 (decide (v < 0)) (roundMag binary32 (v.natAbs * 2 ^ oneExp binary32) 1))

/-- binary32 to a 32-bit integer: truncation toward zero, saturating, a NaN gives 0 (R66). -/
def f2i (a : Word) : Int :=
  if isNaN a then 0
  else
    let t := quanta binary32 (fmag a) / 2 ^ oneExp binary32
    if fsign a then max (-(t : Int)) (-2147483648) else min (t : Int) 2147483647

/-! ### binary64 (R64) -/

/-- R60. -/
def QNAN64 : DWord := 0x7FF8000000000000#64
def posZero64 : DWord := 0x0000000000000000#64

def dadd (a b : DWord) : DWord := BitVec.ofNat 64 (addPat binary64 a.toNat b.toNat)
def dmul (a b : DWord) : DWord := BitVec.ofNat 64 (mulPat binary64 a.toNat b.toNat)

/-- One binary32 quantum is `2 ^ quantumRatio` binary64 quanta. -/
def quantumRatio : Nat := oneExp binary64 - oneExp binary32

/-- binary32 to binary64, exact (R64). -/
def f2d (a : Word) : DWord :=
  if isNaN a then QNAN64
  else BitVec.ofNat 64 (packPat binary64 (fsign a)
    (if isInf a then infMag binary64
     else roundMag binary64 (quanta binary32 (fmag a) * 2 ^ quantumRatio) 1))

/-- binary64 to binary32: ties to even, overflow to infinity, a NaN to `QNAN32` (R64). -/
def d2f (a : DWord) : Word :=
  if nanPat binary64 a.toNat then QNAN32
  else BitVec.ofNat 32 (packPat binary32 (signPat binary64 a.toNat)
    (if infPat binary64 a.toNat then infMag binary32
     else roundMag binary32 (quanta binary64 (magPat binary64 a.toNat)) (2 ^ quantumRatio)))

end Sys2Proof.Machine
end

