-- ==== Sys2Proof/Machine/Flags.lean ====
section
/-! DEFINITION. The core has no status flags, no condition codes and no IEEE exception flags
(10_state.md R23, 40_numerics.md R61). What decides anything in it are the quiet comparisons of R59,
which steer the bypass tests, the clamp of R63 and the stage arms; they are here, with the three status
codes of a response (30_encoding.md R50), the only status the host sees. -/

namespace Sys2Proof.Machine

/-- True for `+0.0` and `−0.0`, false for everything else, a NaN among it (R59). -/
def feq0 (a : Word) : Bool := decide (fmag a = 0)

/-- `a > b`, false when either is a NaN (R59). -/
def fgt (a b : Word) : Bool := !isNaN a && !isNaN b && decide (fquanta b < fquanta a)

/-- `a < b`, false when either is a NaN (R59). -/
def flt (a b : Word) : Bool := fgt b a

/-- `a ≤ b`, false when either is a NaN: the order the properties of R67, R69 speak of. -/
def fle (a b : Word) : Bool := !isNaN a && !isNaN b && decide (fquanta a ≤ fquanta b)

/-- Greater than zero (R59). -/
def fgt0 (a : Word) : Bool := fgt a posZero

/-- Less than zero (R59). -/
def flt0 (a : Word) : Bool := flt a posZero

/-- Compare and select: a NaN passes through unchanged, a zero keeps its sign (R63). -/
def clamp (u lo hi : Word) : Word :=
  if flt u lo then lo else if fgt u hi then hi else u

/-- `OK`: a command on a port that accepts it, whatever its operands (R50). -/
def statusOk : Byte := 0x00#8
/-- `UNKNOWN_OP`: a reserved opcode, either port (R46, R50). -/
def statusUnknownOp : Byte := 0x01#8
/-- `NOT_PERMITTED`: an audio-class opcode on port C (R48, R50). -/
def statusNotPermitted : Byte := 0x02#8

end Sys2Proof.Machine
end

