-- ==== Sys2Proof/Config/Units.lean ====
section
/-! DEFINITION. What the spec requires of the platform's parameters: the three elementary functions
(40_numerics.md R67, R68, R69) and the sine ROM image (44_sine_lut.md R103). Each requirement is one
field under the rule's own name for it. The accuracy requirements speak of the real functions. -/

namespace Sys2Proof.Config

open Sys2Proof.Machine

/-- The three elementary functions of the datapath (00_scope.md R6). -/
structure ElemUnits where
  tanh32 : Word → Word
  sin32 : Word → Word
  pow32 : Word → Word → Word

/-- The properties R67 requires of `TANH32`. (T-total) is its type. -/
structure TanhConforms (eps : ℚ) (f : Word → Word) : Prop where
  /-- (T-nan) -/
  nan : ∀ x, isNaN x = true → f x = QNAN32
  /-- (T-zero) -/
  zero : f posZero = posZero ∧ f negZero = negZero
  /-- (T-inf) -/
  inf : f posInf = f1 ∧ f negInf = fm1
  /-- (T-odd) -/
  odd : ∀ x, isNaN x = false → f (fneg x) = fneg (f x)
  /-- (T-bound) -/
  bound : ∀ x, isNaN x = false → fle fm1 (f x) = true ∧ fle (f x) f1 = true
  /-- (T-sign) -/
  sign : ∀ x, fgt0 x = true → fgt0 (f x) = true
  /-- (T-mono) -/
  mono : ∀ x y, fle x y = true → fle (f x) (f y) = true
  /-- (T-acc) -/
  acc : ∀ x, isFinite x = true → |((fvalue (f x) : ℚ) : ℝ) - Real.tanh (fvalue x : ℚ)| ≤ (eps : ℝ)

/-- The properties R68 requires of `SIN32`; its operand is in radians. -/
structure SinConforms (eps : ℚ) (f : Word → Word) : Prop where
  /-- (S-nan) -/
  nan : ∀ x, isFinite x = false → f x = QNAN32
  /-- (S-zero) -/
  zero : f posZero = posZero ∧ f negZero = negZero
  /-- (S-odd) -/
  odd : ∀ x, isFinite x = true → f (fneg x) = fneg (f x)
  /-- (S-bound) -/
  bound : ∀ x, isFinite x = true → fle fm1 (f x) = true ∧ fle (f x) f1 = true
  /-- (S-acc) -/
  acc : ∀ x, isFinite x = true → |((fvalue (f x) : ℚ) : ℝ) - Real.sin (fvalue x : ℚ)| ≤ (eps : ℝ)

/-- The value is an odd integer (used by (P-zero)). -/
def isOddInteger (y : Word) : Bool :=
  isFinite y && decide (fquanta y % 2 ^ 149 = 0) && decide (fquanta y / 2 ^ 149 % 2 = 1)

/-- The least exponent stage COMP uses with parameters in range, `0.19999998807907104` (R69). -/
def compExpMin : Word := 0x3E4CCCCC#32
/-- The greatest one, `0.9919999837875366` (R69). -/
def compExpMax : Word := 0x3F7DF3B6#32

/-- The properties R69 requires of `POW32`, `POW32(x, y) = x^y`. -/
structure PowConforms (eps : ℚ) (f : Word → Word → Word) : Prop where
  /-- (P-nan) -/
  nan : (∀ x y, isNaN x = true → feq0 y = false → f x y = QNAN32) ∧
    (∀ x y, isNaN y = true → x ≠ f1 → f x y = QNAN32)
  /-- R60: a NaN result is the canonical one, whatever the operands -/
  canonical : ∀ x y, isNaN (f x y) = true → f x y = QNAN32
  /-- (P-zero) -/
  zero : (∀ y, isFinite y = true → fgt0 y = true → isOddInteger y = false →
      f posZero y = posZero ∧ f negZero y = posZero) ∧
    (∀ y, fgt0 y = true → isOddInteger y = true → f negZero y = negZero)
  /-- (P-inf) -/
  inf : ∀ y, fgt0 y = true → f posInf y = posInf
  /-- (P-one) -/
  one : (∀ y, f f1 y = f1) ∧ (∀ x y, feq0 y = true → f x y = f1) ∧
    (∀ x, fle posZero x = true → f x f1 = x)
  /-- (P-pos); "unless the real `x^y` underflows" is read as: unless it lies below the least positive
  binary32 value. -/
  pos : (∀ x y, fgt0 x = true → isFinite y = true → fle posZero (f x y) = true) ∧
    (∀ x y, fgt0 x = true → isFinite x = true → isFinite y = true →
      ((2 : ℝ) ^ (149 : ℕ))⁻¹ ≤ ((fvalue x : ℚ) : ℝ) ^ ((fvalue y : ℚ) : ℝ) → fgt0 (f x y) = true)
  /-- (P-mono) -/
  mono : ∀ x₁ x₂ y, fgt0 y = true → fle posZero x₁ = true → fle x₁ x₂ = true →
    fle (f x₁ y) (f x₂ y) = true
  /-- (P-unit) -/
  unit : (∀ x y, fgt0 y = true → fle y f1 = true → fle posZero x = true → fle x f1 = true →
      fle x (f x y) = true ∧ fle (f x y) f1 = true) ∧
    (∀ x y, fgt0 y = true → fle y f1 = true → fle f1 x = true →
      fle f1 (f x y) = true ∧ fle (f x y) x = true)
  /-- (P-acc) -/
  acc : ∀ x y, isFinite x = true → fgt0 x = true → fle compExpMin y = true →
    fle y compExpMax = true →
    |((fvalue (f x y) : ℚ) : ℝ) - ((fvalue x : ℚ) : ℝ) ^ ((fvalue y : ℚ) : ℝ)|
      ≤ (eps : ℝ) * max 1 (((fvalue x : ℚ) : ℝ) ^ ((fvalue y : ℚ) : ℝ))

/-- Entries of the sine ROM (R6, `N`). -/
def romSize : Nat := 4096

/-- The properties R103 requires of every ROM image. (R-const) is a property of the machine: no step
writes the ROM. -/
structure RomConforms (eps : ℚ) (rom : List Word) : Prop where
  /-- (R-size) -/
  size : rom.length = romSize ∧ ∀ w ∈ rom, isFinite w = true
  /-- (R-bound) -/
  bound : ∀ w ∈ rom, fle fm1 w = true ∧ fle w f1 = true
  /-- (R-acc) -/
  acc : ∀ (i : ℕ) (w : Word), rom[i]? = some w →
    |((fvalue w : ℚ) : ℝ) - Real.sin (Real.pi * (2 * (i : ℝ) / 4095 - 1))| ≤ (eps : ℝ)

end Sys2Proof.Config
end

