-- ==== Sys2Proof/Machine/ArithFacts.lean ====
section
/-! DEFINITION. Small facts about the sign, magnitude and order of binary32 patterns, stated once: the
platform's witness (Machine/Witness.lean) rests on them, and later proofs cite them. -/

namespace Sys2Proof.Machine

theorem fneg_toNat (x : Word) :
    (fneg x).toNat = if 2147483648 ≤ x.toNat then x.toNat - 2147483648 else x.toNat + 2147483648 := by
  have := x.isLt
  simp only [fneg, fsign, fmag, packPat, signPat, magPat, BitVec.toNat_ofNat, Bool.not_eq_true',
    decide_eq_false_iff_not]
  split <;> split <;> omega

theorem fmag_fneg (x : Word) : fmag (fneg x) = fmag x := by
  have := x.isLt
  simp only [fmag, magPat, fneg_toNat]; split <;> omega

theorem fsign_fneg (x : Word) : fsign (fneg x) = !fsign x := by
  have := x.isLt
  simp only [fsign, signPat, fneg_toNat, ← decide_not, decide_eq_decide]; split <;> omega

theorem word_ext {x y : Word} (hs : fsign x = fsign y) (hm : fmag x = fmag y) : x = y := by
  have := x.isLt
  have := y.isLt
  simp only [fsign, signPat, fmag, magPat, decide_eq_decide] at hs hm
  apply BitVec.eq_of_toNat_eq; omega

theorem fneg_fneg (x : Word) : fneg (fneg x) = x :=
  word_ext (by simp [fsign_fneg]) (by simp [fmag_fneg])

theorem isNaN_fneg (x : Word) : isNaN (fneg x) = isNaN x :=
  congrArg (fun m => decide (infMag binary32 < m)) (fmag_fneg x)

theorem isInf_fneg (x : Word) : isInf (fneg x) = isInf x :=
  congrArg (fun m => decide (m = infMag binary32)) (fmag_fneg x)

theorem isFinite_fneg (x : Word) : isFinite (fneg x) = isFinite x :=
  congrArg (fun m => decide (m < infMag binary32)) (fmag_fneg x)

theorem feq0_fneg (x : Word) : feq0 (fneg x) = feq0 x :=
  congrArg (fun m => decide (m = 0)) (fmag_fneg x)

theorem isNaN_of_isFinite {x : Word} (h : isFinite x = true) : isNaN x = false := by
  simp only [isFinite, isNaN, nanPat, decide_eq_true_eq, decide_eq_false_iff_not] at *; omega

/-- A magnitude pattern stands for zero quanta only when it is zero. -/
theorem quanta_pos {m : Nat} (h : 0 < m) : 0 < quanta binary32 m := by
  unfold quanta; split
  · exact h
  · exact Nat.mul_pos (by simp) (Nat.pow_pos (by decide))

theorem fquanta_eq (x : Word) :
    fquanta x = if fsign x then -(quanta binary32 (fmag x) : Int) else (quanta binary32 (fmag x) : Int) :=
  rfl

theorem fquanta_fneg (x : Word) : fquanta (fneg x) = -fquanta x := by
  rw [fquanta_eq, fquanta_eq, fsign_fneg, fmag_fneg]; cases fsign x <;> simp

theorem quanta_zero : quanta binary32 0 = 0 := by decide

theorem feq0_iff (x : Word) : feq0 x = true ↔ fquanta x = 0 := by
  rw [fquanta_eq]
  by_cases hz : fmag x = 0
  · simp [feq0, hz, quanta_zero]
  · have h1 := quanta_pos (Nat.pos_of_ne_zero hz)
    simp only [feq0, decide_eq_true_eq]; split <;> omega

theorem fquanta_neg_iff (x : Word) : fquanta x < 0 ↔ fsign x = true ∧ feq0 x = false := by
  rw [← Bool.not_eq_true (feq0 x), feq0_iff, fquanta_eq]
  cases fsign x
  · simp
  · simp; omega

theorem fquanta_pos_iff (x : Word) : 0 < fquanta x ↔ fsign x = false ∧ feq0 x = false := by
  rw [← Bool.not_eq_true (feq0 x), feq0_iff, fquanta_eq]
  cases fsign x
  · simp; omega
  · simp

theorem fle_iff (x y : Word) :
    fle x y = true ↔ isNaN x = false ∧ isNaN y = false ∧ fquanta x ≤ fquanta y := by
  simp [fle, and_assoc]

theorem fgt_iff (x y : Word) :
    fgt x y = true ↔ isNaN x = false ∧ isNaN y = false ∧ fquanta y < fquanta x := by
  simp [fgt, and_assoc]

theorem fgt0_iff (x : Word) : fgt0 x = true ↔ isNaN x = false ∧ 0 < fquanta x := by
  have h1 : isNaN posZero = false := by decide
  have h2 : fquanta posZero = 0 := by decide
  simp [fgt0, fgt_iff, h1, h2]

theorem flt0_iff (x : Word) : flt0 x = true ↔ isNaN x = false ∧ fquanta x < 0 := by
  have h1 : isNaN posZero = false := by decide
  have h2 : fquanta posZero = 0 := by decide
  simp [flt0, flt, fgt_iff, h1, h2]

theorem fquanta_posZero : fquanta posZero = 0 := by decide
theorem fquanta_negZero : fquanta negZero = 0 := by decide
theorem fquanta_f1 : fquanta f1 = 2 ^ 149 := by decide
theorem fquanta_fm1 : fquanta fm1 = -2 ^ 149 := by decide

theorem fvalue_f1 : fvalue f1 = 1 := by rw [fvalue, fquanta_f1]; norm_num
theorem fvalue_fm1 : fvalue fm1 = -1 := by rw [fvalue, fquanta_fm1]; norm_num

end Sys2Proof.Machine
end

