-- ==== Sys2Proof/Machine/Witness.lean ====
section
/-! DEFINITION. A witness that the requirements of Config/Units.lean can be met together: crude functions
and a flat image, with the accuracy bound 2. Lean asks for it before it accepts the platform as a constant
without a body (Config.lean). The machine never computes with it, and no value of it can be proved of the
platform. -/

namespace Sys2Proof.Machine

open Sys2Proof.Config

/-- A sign function that saturates at once. -/
def witnessTanh (x : Word) : Word :=
  if isNaN x then QNAN32 else if feq0 x then x else if fsign x then fm1 else f1

/-- A zero of the operand's sign. -/
def witnessSin (x : Word) : Word :=
  if isFinite x then (if fsign x then negZero else posZero) else QNAN32

/-- `min(x, 1)` for the bases stage COMP uses. -/
def witnessPow (x y : Word) : Word :=
  if feq0 y then f1
  else if x = f1 then f1
  else if isNaN x || isNaN y then QNAN32
  else if y = f1 ∧ fle posZero x = true then x
  else if feq0 x then (if fsign x && isOddInteger y then negZero else posZero)
  else if fsign x then QNAN32
  else if fgt0 y then (if isInf x then x else if flt x f1 then x else f1)
  else if isInf x then posZero
  else f1

def witnessRom : List Word := List.replicate romSize posZero

theorem feq0_eq_false (x : Word) : feq0 x = false ↔ fquanta x ≠ 0 := by
  rw [← Bool.not_eq_true, feq0_iff]

theorem feq0_cases {x : Word} (h : feq0 x = true) : x = posZero ∨ x = negZero := by
  have hm : fmag x = 0 := by simpa [feq0] using h
  cases hs : fsign x
  · exact .inl (word_ext (by rw [hs]; decide) (by rw [hm]; decide))
  · exact .inr (word_ext (by rw [hs]; decide) (by rw [hm]; decide))

theorem isInf_cases {x : Word} (h : isInf x = true) : x = posInf ∨ x = negInf := by
  have hm : fmag x = infMag binary32 := by simpa [isInf, infPat, fmag] using h
  cases hs : fsign x
  · exact .inl (word_ext (by rw [hs]; decide) (by rw [hm]; decide))
  · exact .inr (word_ext (by rw [hs]; decide) (by rw [hm]; decide))

theorem witnessTanh_cases (x : Word) (h : isNaN x = false) :
    (fquanta x = 0 ∧ witnessTanh x = x) ∨ (fquanta x < 0 ∧ witnessTanh x = fm1) ∨
      (0 < fquanta x ∧ witnessTanh x = f1) := by
  by_cases hz : feq0 x = true
  · exact .inl ⟨(feq0_iff x).1 hz, by simp [witnessTanh, h, hz]⟩
  · have hz' : feq0 x = false := by simpa using hz
    cases hs : fsign x
    · exact .inr (.inr ⟨(fquanta_pos_iff x).2 ⟨hs, hz'⟩, by simp [witnessTanh, h, hz', hs]⟩)
    · exact .inr (.inl ⟨(fquanta_neg_iff x).2 ⟨hs, hz'⟩, by simp [witnessTanh, h, hz', hs]⟩)

theorem isNaN_f1 : isNaN f1 = false := by decide
theorem isNaN_fm1 : isNaN fm1 = false := by decide

theorem witnessTanh_bound (x : Word) (h : isNaN x = false) :
    isNaN (witnessTanh x) = false ∧ -2 ^ 149 ≤ fquanta (witnessTanh x) ∧
      fquanta (witnessTanh x) ≤ 2 ^ 149 := by
  rcases witnessTanh_cases x h with ⟨h0, e⟩ | ⟨h0, e⟩ | ⟨h0, e⟩ <;> rw [e]
  · refine ⟨h, ?_, ?_⟩ <;> (rw [h0]; norm_num)
  · rw [fquanta_fm1]; exact ⟨isNaN_fm1, by norm_num, by norm_num⟩
  · rw [fquanta_f1]; exact ⟨isNaN_f1, by norm_num, by norm_num⟩

theorem abs_fvalue_le_one {w : Word} (h1 : -2 ^ 149 ≤ fquanta w) (h2 : fquanta w ≤ 2 ^ 149) :
    |((fvalue w : ℚ) : ℝ)| ≤ 1 := by
  have : |fvalue w| ≤ 1 := by
    rw [fvalue, abs_le, le_div_iff₀ (by positivity), div_le_iff₀ (by positivity)]
    constructor
    · have := h1; push_cast at *; norm_num at *; exact_mod_cast this
    · have := h2; push_cast at *; norm_num at *; exact_mod_cast this
  exact_mod_cast this

theorem witness_tanh : TanhConforms 2 witnessTanh where
  nan x h := by simp [witnessTanh, h]
  zero := by decide
  inf := by decide
  odd x h := by
    by_cases hz : feq0 x = true
    · simp [witnessTanh, isNaN_fneg, feq0_fneg, h, hz]
    · have e : fneg fm1 = f1 := by decide
      have e' : fneg f1 = fm1 := by decide
      cases hs : fsign x <;> simp [witnessTanh, isNaN_fneg, feq0_fneg, fsign_fneg, h, hz, hs, e, e']
  bound x h := by
    obtain ⟨a, b, c⟩ := witnessTanh_bound x h
    simp only [fle_iff, fquanta_f1, fquanta_fm1]
    exact ⟨⟨isNaN_fm1, a, b⟩, a, isNaN_f1, c⟩
  sign x h := by
    obtain ⟨hn, hq⟩ := (fgt0_iff x).1 h
    rcases witnessTanh_cases x hn with ⟨h0, e⟩ | ⟨h0, e⟩ | ⟨h0, e⟩
    · omega
    · omega
    · rw [e]; decide
  mono x y h := by
    obtain ⟨hx, hy, hq⟩ := (fle_iff x y).1 h
    obtain ⟨bx, bx1, bx2⟩ := witnessTanh_bound x hx
    obtain ⟨by0, by1, by2⟩ := witnessTanh_bound y hy
    refine (fle_iff _ _).2 ⟨bx, by0, ?_⟩
    rcases witnessTanh_cases x hx with ⟨h0, e⟩ | ⟨h0, e⟩ | ⟨h0, e⟩
    · rcases witnessTanh_cases y hy with ⟨h1, e1⟩ | ⟨h1, e1⟩ | ⟨h1, e1⟩
      · rw [e, e1]; exact hq
      · omega
      · rw [e, e1, h0, fquanta_f1]; norm_num
    · rw [e, fquanta_fm1]; exact by1
    · rcases witnessTanh_cases y hy with ⟨h1, e1⟩ | ⟨h1, e1⟩ | ⟨h1, e1⟩
      · omega
      · omega
      · rw [e, e1]
  acc x h := by
    obtain ⟨_, b, c⟩ := witnessTanh_bound x (isNaN_of_isFinite h)
    have h1 := abs_fvalue_le_one b c
    have h2 := (Real.abs_tanh_lt_one (fvalue x : ℚ)).le
    refine (abs_sub _ _).trans ?_
    push_cast; linarith

theorem witnessSin_zero (x : Word) (h : isFinite x = true) :
    fquanta (witnessSin x) = 0 ∧ isNaN (witnessSin x) = false := by
  cases hs : fsign x <;> simp [witnessSin, h, hs] <;> decide

theorem witness_sin : SinConforms 2 witnessSin where
  nan x h := by simp [witnessSin, h]
  zero := by decide
  odd x h := by
    have e : fneg negZero = posZero := by decide
    have e' : fneg posZero = negZero := by decide
    cases hs : fsign x <;> simp [witnessSin, isFinite_fneg, fsign_fneg, h, hs, e, e']
  bound x h := by
    obtain ⟨a, b⟩ := witnessSin_zero x h
    simp only [fle_iff, fquanta_f1, fquanta_fm1, a]
    exact ⟨⟨isNaN_fm1, b, by norm_num⟩, b, isNaN_f1, by norm_num⟩
  acc x h := by
    have e : fvalue (witnessSin x) = 0 := by rw [fvalue, (witnessSin_zero x h).1]; simp
    have := Real.abs_sin_le_one (fvalue x : ℚ)
    rw [e]; simp only [Rat.cast_zero, zero_sub, abs_neg]; push_cast; linarith

theorem witness_rom : RomConforms 2 witnessRom where
  size := ⟨by simp [witnessRom], fun w hw => by rw [List.eq_of_mem_replicate hw]; decide⟩
  bound w hw := by rw [List.eq_of_mem_replicate hw]; decide
  acc i w h := by
    have hw : w = posZero := List.eq_of_mem_replicate (List.mem_of_getElem? h)
    have e : fvalue posZero = 0 := by rw [fvalue, fquanta_posZero]; simp
    have := Real.abs_sin_le_one (Real.pi * (2 * (i : ℝ) / 4095 - 1))
    rw [hw, e]; simp only [Rat.cast_zero, zero_sub, abs_neg]; push_cast; linarith

theorem witnessPow_exp_zero (x y : Word) (h : feq0 y = true) : witnessPow x y = f1 := by
  simp [witnessPow, h]

theorem witnessPow_one (y : Word) : witnessPow f1 y = f1 := by
  simp [witnessPow]

theorem feq0_of_fgt0 {y : Word} (h : fgt0 y = true) : feq0 y = false :=
  (feq0_eq_false y).2 (by have := ((fgt0_iff y).1 h).2; omega)

theorem fquanta_of_isInf {x : Word} (h : isInf x = true) (hx : 0 ≤ fquanta x) :
    x = posInf ∧ fquanta x = fquanta posInf := by
  rcases isInf_cases h with rfl | rfl
  · exact ⟨rfl, rfl⟩
  · exact absurd hx (by decide)

theorem fquanta_lt_of_not_isInf {x : Word} (hn : isNaN x = false) (h : isInf x = false) :
    fquanta x < fquanta posInf := by
  have hm : fmag x < 2139095040 := by
    have e : infMag binary32 = 2139095040 := by decide
    simp only [isNaN, isInf, nanPat, infPat, decide_eq_false_iff_not, e] at hn h
    simp only [fmag]; omega
  have hq : quanta binary32 (fmag x) < 2 ^ 24 * 2 ^ 253 := by
    unfold quanta; simp only
    split
    · exact lt_of_lt_of_le hm (by norm_num)
    · have h1 : fmag x / 2 ^ 23 - 1 ≤ 253 := by omega
      have h2 : 2 ^ 23 + fmag x % 2 ^ 23 < 2 ^ 24 := by omega
      calc (2 ^ 23 + fmag x % 2 ^ 23) * 2 ^ (fmag x / 2 ^ 23 - 1)
          < 2 ^ 24 * 2 ^ (fmag x / 2 ^ 23 - 1) := Nat.mul_lt_mul_of_pos_right h2 (by positivity)
        _ ≤ 2 ^ 24 * 2 ^ 253 := Nat.mul_le_mul_left _ (Nat.pow_le_pow_right (by decide) h1)
  have hi : fquanta posInf = 2 ^ 24 * 2 ^ 253 := by decide
  rw [hi, fquanta_eq]; split <;> (zify at hq; omega)

/-- All that `witnessPow` does for a positive exponent and a base that is not negative. -/
theorem witnessPow_spec {x y : Word} (hy : fgt0 y = true) (hx : fle posZero x = true) :
    isNaN (witnessPow x y) = false ∧ fquanta (witnessPow x y) =
      if y = f1 ∨ isInf x = true then fquanta x else min (fquanta x) (2 ^ 149) := by
  obtain ⟨_, hxn, hxq⟩ := (fle_iff _ _).1 hx
  rw [fquanta_posZero] at hxq
  have hyn := ((fgt0_iff y).1 hy).1
  have hy0 := feq0_of_fgt0 hy
  by_cases h1 : x = f1
  · subst h1
    rw [witnessPow_one, fquanta_f1]
    exact ⟨isNaN_f1, by simp⟩
  by_cases h2 : y = f1
  · have : witnessPow x y = x := by subst h2; simp [witnessPow, hy0, h1, hxn, isNaN_f1, hx]
    rw [this]; exact ⟨hxn, by simp [h2]⟩
  by_cases h3 : feq0 x = true
  · have hq := (feq0_iff x).1 h3
    have hi : isInf x = false := by rcases feq0_cases h3 with rfl | rfl <;> decide
    have : witnessPow x y = negZero ∨ witnessPow x y = posZero := by
      by_cases hc : (fsign x && isOddInteger y) = true
      · left; simp only [witnessPow, hy0, h1, hxn, hyn, h2, h3, hc]; simp
      · right; simp only [witnessPow, hy0, h1, hxn, hyn, h2, h3, hc]; simp
    rcases this with e | e <;> rw [e]
    · rw [fquanta_negZero]; exact ⟨by decide, by simp [h2, hi, hq]⟩
    · rw [fquanta_posZero]; exact ⟨by decide, by simp [h2, hi, hq]⟩
  have h3' : feq0 x = false := by simpa using h3
  have hs : fsign x = false := ((fquanta_pos_iff x).1 (lt_of_le_of_ne hxq
    (Ne.symm ((feq0_eq_false x).1 h3')))).1
  by_cases h4 : isInf x = true
  · have : witnessPow x y = x := by simp [witnessPow, hy0, h1, hxn, hyn, h2, h3', hs, hy, h4]
    rw [this]; exact ⟨hxn, by simp [h4]⟩
  have h4' : isInf x = false := by simpa using h4
  by_cases h5 : flt x f1 = true
  · have : witnessPow x y = x := by simp [witnessPow, hy0, h1, hxn, hyn, h2, h3', hs, hy, h4', h5]
    rw [this]
    have := ((fgt_iff _ _).1 h5).2.2
    rw [fquanta_f1] at this
    exact ⟨hxn, by simp [h2, h4']; omega⟩
  · have h5' : flt x f1 = false := by simpa using h5
    have : witnessPow x y = f1 := by
      simp [witnessPow, hy0, h1, hxn, hyn, h2, h3', hs, hy, h4', h5']
    rw [this, fquanta_f1]
    have : ¬ fquanta x < 2 ^ 149 := fun hlt =>
      h5 ((fgt_iff _ _).2 ⟨isNaN_f1, hxn, by rw [fquanta_f1]; exact hlt⟩)
    exact ⟨isNaN_f1, by simp [h2, h4']; omega⟩

theorem posZero_le_of_fgt0 {x : Word} (h : fgt0 x = true) : fle posZero x = true := by
  obtain ⟨a, b⟩ := (fgt0_iff x).1 h
  exact (fle_iff _ _).2 ⟨by decide, a, by rw [fquanta_posZero]; omega⟩

/-- A positive base and a finite exponent give a value that is not negative, and a positive one from a
finite base. -/
theorem witnessPow_pos {x y : Word} (hx : fgt0 x = true) (hy : isFinite y = true) :
    fle posZero (witnessPow x y) = true ∧ (isFinite x = true → fgt0 (witnessPow x y) = true) := by
  obtain ⟨hxn, hxq⟩ := (fgt0_iff x).1 hx
  have hyn := isNaN_of_isFinite hy
  have k1 : fle posZero f1 = true ∧ fgt0 f1 = true := by decide
  have h3 : feq0 x = false := (feq0_eq_false x).2 (by omega)
  have hs : fsign x = false := ((fquanta_pos_iff x).1 hxq).1
  by_cases h0 : feq0 y = true
  · rw [witnessPow_exp_zero x y h0]; exact ⟨k1.1, fun _ => k1.2⟩
  have h0' : feq0 y = false := by simpa using h0
  by_cases hg : fgt0 y = true
  · obtain ⟨hn, hq⟩ := witnessPow_spec hg (posZero_le_of_fgt0 hx)
    have : 0 < fquanta (witnessPow x y) := by
      rw [hq]; split
      · exact hxq
      · exact lt_min hxq (by norm_num)
    have := (fgt0_iff _).2 ⟨hn, this⟩
    exact ⟨posZero_le_of_fgt0 this, fun _ => this⟩
  have hg' : fgt0 y = false := by simpa using hg
  by_cases h1 : x = f1
  · subst h1; rw [witnessPow_one]; exact ⟨k1.1, fun _ => k1.2⟩
  have hy1 : y ≠ f1 := by rintro rfl; exact hg (by decide)
  by_cases h4 : isInf x = true
  · have : witnessPow x y = posZero := by
      simp [witnessPow, h0', h1, hxn, hyn, hy1, h3, hs, hg', h4]
    rw [this]
    refine ⟨by decide, fun hf => ?_⟩
    simp only [isInf, infPat, decide_eq_true_eq] at h4
    simp only [isFinite, decide_eq_true_eq] at hf
    omega
  · have h4' : isInf x = false := by simpa using h4
    have : witnessPow x y = f1 := by
      simp [witnessPow, h0', h1, hxn, hyn, hy1, h3, hs, hg', h4']
    rw [this]; exact ⟨k1.1, fun _ => k1.2⟩

theorem isInf_of_isFinite {x : Word} (h : isFinite x = true) : isInf x = false := by
  simp only [isFinite, isInf, infPat, decide_eq_true_eq, decide_eq_false_iff_not] at *; omega

/-- For a finite positive base and an exponent that is positive and not 1 the value is `min(x, 1)`. -/
theorem fvalue_witnessPow {x y : Word} (hx : isFinite x = true) (h0 : fgt0 x = true)
    (hy : fgt0 y = true) (hy1 : y ≠ f1) : fvalue (witnessPow x y) = min (fvalue x) 1 := by
  obtain ⟨_, hq⟩ := witnessPow_spec hy (posZero_le_of_fgt0 h0)
  rw [if_neg (by simp [hy1, isInf_of_isFinite hx])] at hq
  rw [fvalue, hq, fvalue]
  push_cast
  rw [← min_div_div_right (by positivity)]
  norm_num

theorem fvalue_nonneg {x : Word} (h : 0 ≤ fquanta x) : 0 ≤ fvalue x :=
  div_nonneg (by exact_mod_cast h) (by positivity)

theorem witness_pow : PowConforms 2 witnessPow where
  nan := by
    refine ⟨fun x y hx hy => ?_, fun x y hy hx => ?_⟩
    · have : x ≠ f1 := by rintro rfl; simp [isNaN_f1] at hx
      simp [witnessPow, hx, hy, this]
    · have : feq0 y = false := by
        by_contra h
        rcases feq0_cases (by simpa using h) with rfl | rfl <;> revert hy <;> decide
      simp [witnessPow, hx, hy, this]
  canonical x y h := by
    have k : isNaN f1 = false ∧ isNaN posZero = false ∧ isNaN negZero = false := by decide
    unfold witnessPow at h ⊢
    split at h <;> [simp_all; skip]
    split at h <;> [simp_all; skip]
    split at h
    · simp_all
    · split at h <;> [simp_all; skip]
      split at h
      · split at h <;> simp_all
      · split at h
        · simp_all
        · split at h
          · split at h <;> [simp_all; split at h <;> simp_all]
          · split at h <;> simp_all
  zero := by
    refine ⟨fun y _ hy ho => ?_, fun y hy ho => ?_⟩
    · have hn := ((fgt0_iff y).1 hy).1
      have h0 := feq0_of_fgt0 hy
      have e1 : posZero ≠ f1 ∧ isNaN posZero = false ∧ feq0 posZero = true ∧ fsign posZero = false := by
        decide
      have e2 : negZero ≠ f1 ∧ isNaN negZero = false ∧ feq0 negZero = true := by decide
      have hy1 : y ≠ f1 := by rintro rfl; revert ho; decide
      exact ⟨by simp [witnessPow, h0, e1, hn, hy1], by simp [witnessPow, h0, e2, hn, hy1, ho]⟩
    · have hn := ((fgt0_iff y).1 hy).1
      have h0 := feq0_of_fgt0 hy
      have e2 : negZero ≠ f1 ∧ isNaN negZero = false ∧ feq0 negZero = true ∧ fsign negZero = true := by
        decide
      by_cases hy1 : y = f1
      · subst hy1; decide
      · simp [witnessPow, h0, e2, hn, hy1, ho]
  inf y hy := by
    have hn := ((fgt0_iff y).1 hy).1
    have h0 := feq0_of_fgt0 hy
    have e : posInf ≠ f1 ∧ isNaN posInf = false ∧ feq0 posInf = false ∧ fsign posInf = false ∧
      isInf posInf = true := by decide
    by_cases hy1 : y = f1
    · subst hy1; decide
    · simp [witnessPow, h0, e, hn, hy1, hy]
  one := by
    refine ⟨witnessPow_one, fun x y h => witnessPow_exp_zero x y h, fun x hx => ?_⟩
    have hn := ((fle_iff _ _).1 hx).2.1
    have e : feq0 f1 = false := by decide
    by_cases h1 : x = f1
    · subst h1; exact witnessPow_one f1
    · simp [witnessPow, e, h1, hn, isNaN_f1, hx]
  pos := ⟨fun _ _ hx hy => (witnessPow_pos hx hy).1, fun _ _ hx hf hy _ => (witnessPow_pos hx hy).2 hf⟩
  mono x₁ x₂ y hy h0 h := by
    obtain ⟨_, n1, q1⟩ := (fle_iff _ _).1 h0
    obtain ⟨_, n2, q2⟩ := (fle_iff _ _).1 h
    rw [fquanta_posZero] at q1
    have h0' : fle posZero x₂ = true :=
      (fle_iff _ _).2 ⟨by decide, n2, by rw [fquanta_posZero]; omega⟩
    obtain ⟨a1, b1⟩ := witnessPow_spec hy h0
    obtain ⟨a2, b2⟩ := witnessPow_spec hy h0'
    refine (fle_iff _ _).2 ⟨a1, a2, ?_⟩
    rw [b1, b2]
    by_cases hy1 : y = f1
    · simpa [hy1] using q2
    cases i1 : isInf x₁ <;> cases i2 : isInf x₂ <;> simp only [hy1, false_or, if_true]
    · simp only [Bool.false_eq_true, if_false]; exact min_le_min_right _ q2
    · simp only [Bool.false_eq_true, if_false]; exact (min_le_left _ _).trans q2
    · have := fquanta_lt_of_not_isInf n2 i2
      have := (fquanta_of_isInf i1 q1).2
      omega
    · exact q2
  unit := by
    refine ⟨fun x y hy _ h0 h1 => ?_, fun x y hy _ h1 => ?_⟩
    · obtain ⟨_, n1, q1⟩ := (fle_iff _ _).1 h1
      obtain ⟨a, b⟩ := witnessPow_spec hy h0
      rw [fquanta_f1] at q1
      have : fquanta (witnessPow x y) = fquanta x := by
        rw [b]; split
        · rfl
        · exact min_eq_left q1
      exact ⟨(fle_iff _ _).2 ⟨((fle_iff _ _).1 h1).1, a, this.ge⟩,
        (fle_iff _ _).2 ⟨a, n1, by rw [this, fquanta_f1]; exact q1⟩⟩
    · obtain ⟨_, n1, q1⟩ := (fle_iff _ _).1 h1
      rw [fquanta_f1] at q1
      have h0 : fle posZero x = true :=
        (fle_iff _ _).2 ⟨by decide, n1, by rw [fquanta_posZero]; exact le_trans (by norm_num) q1⟩
      obtain ⟨a, b⟩ := witnessPow_spec hy h0
      refine ⟨(fle_iff _ _).2 ⟨isNaN_f1, a, ?_⟩, (fle_iff _ _).2 ⟨a, n1, ?_⟩⟩ <;> rw [b]
      · rw [fquanta_f1]; split
        · exact q1
        · exact le_min q1 le_rfl
      · split
        · exact le_rfl
        · exact min_le_left _ _
  acc x y hf hx hy1 hy2 := by
    have hy : fgt0 y = true := by
      obtain ⟨_, a, b⟩ := (fle_iff _ _).1 hy1
      have : 0 < fquanta compExpMin := by decide
      exact (fgt0_iff y).2 ⟨a, by omega⟩
    have hne : y ≠ f1 := by rintro rfl; revert hy2; decide
    rw [fvalue_witnessPow hf hx hy hne]
    have hv : (0 : ℝ) ≤ (fvalue x : ℚ) := by
      exact_mod_cast fvalue_nonneg ((fgt0_iff x).1 hx).2.le
    have hp := Real.rpow_nonneg hv ((fvalue y : ℚ) : ℝ)
    set p := ((fvalue x : ℚ) : ℝ) ^ ((fvalue y : ℚ) : ℝ)
    have h1 : (1 : ℝ) ≤ max 1 p := le_max_left _ _
    have h2 : p ≤ max 1 p := le_max_right _ _
    have h3 : ((min (fvalue x) 1 : ℚ) : ℝ) ≤ 1 := by exact_mod_cast min_le_right _ _
    have h4 : (0 : ℝ) ≤ ((min (fvalue x) 1 : ℚ) : ℝ) := by
      exact_mod_cast le_min (by exact_mod_cast hv) zero_le_one
    rw [abs_le]; push_cast at *; constructor <;> linarith

end Sys2Proof.Machine
end

