-- ==== Sys2Proof/Config.lean ====
section
/-! DEFINITION. What is fixed for one machine but not by the spec (00_scope.md R6, R7; 10_state.md R11): the
platform's elementary functions, ROM image and accuracy bound, and the arbiter between enabled steps.
Both are constants without a body: a proof can use the named properties and nothing else. -/

namespace Sys2Proof

open Sys2Proof.Machine

namespace Config

/-- The parameters a platform fixes: `EPS_ELEM` (92_eei_decisions.md D22), `TANH32`, `SIN32`, `POW32`
(R67, R68, R69) and `SINE_ROM` (R102, R103), with the properties the spec requires of them. The default
values only show that such a platform exists. -/
structure Platform where
  epsElem : ℚ := 2
  units : ElemUnits := ⟨witnessTanh, witnessSin, witnessPow⟩
  sineRom : List Word := witnessRom
  epsPos : 0 < epsElem := by norm_num
  tanhOk : TanhConforms epsElem units.tanh32 := by exact witness_tanh
  sinOk : SinConforms epsElem units.sin32 := by exact witness_sin
  powOk : PowConforms epsElem units.pow32 := by exact witness_pow
  romOk : RomConforms epsElem sineRom := by exact witness_rom
  deriving Inhabited

/-- The steps that can be enabled at one moment (60_exceptions.md R111, 10_state.md R22): a host context
presents a command into its empty latch, the platform acts, the core executes (S1) on port C, or the core
executes one of (S2) to (S5) for port A. -/
inductive Action where
  | presentA
  | presentC
  | platform
  | serveC
  | serveA
  deriving DecidableEq, Repr

/-- Turn by turn. -/
def roundRobin (n : Nat) : Action :=
  match n % 5 with
  | 0 => .presentA
  | 1 => .presentC
  | 2 => .platform
  | 3 => .serveC
  | _ => .serveA

theorem roundRobin_fair (a : Action) (n : Nat) : ∃ m, n ≤ m ∧ roundRobin m = a := by
  have h (k : Nat) (hk : k < 5) : (5 * n + k) % 5 = k := by omega
  cases a
  · exact ⟨5 * n + 0, by omega, by simp [roundRobin]⟩
  · exact ⟨5 * n + 1, by omega, by simp [roundRobin, h 1 (by omega)]⟩
  · exact ⟨5 * n + 2, by omega, by simp [roundRobin, h 2 (by omega)]⟩
  · exact ⟨5 * n + 3, by omega, by simp [roundRobin, h 3 (by omega)]⟩
  · exact ⟨5 * n + 4, by omega, by simp [roundRobin, h 4 (by omega)]⟩

/-- Who goes first at the n-th moment at which more than one step is enabled: "nondeterministic, weakly
fair" (R111, R112; 93_implementation_defined.md U7). The default only shows that a fair choice exists. -/
structure Arbiter where
  prefer : Nat → Action := roundRobin
  fair : ∀ a n, ∃ m, n ≤ m ∧ prefer m = a := by exact roundRobin_fair
  deriving Inhabited

/-- The platform's parameters: free values, constrained by R67 to R69 and R103 (U2, U3). -/
opaque platform : Platform

/-- The arbiter: a free value, constrained by weak fairness (U7). -/
opaque arbiter : Arbiter

/-- `TANH32`, `SIN32`, `POW32` of this platform. -/
def units : ElemUnits := platform.units

/-- What a byte of sample memory reads as that nothing has written: the core does not reset the sample
memory and the spec gives its first contents no value (10_state.md R26). DESIGN CHOICE, log entry 1. -/
def unlistedByte : Byte := 0x00#8

end Config

end Sys2Proof
end

