-- ==== Sys2Proof/Machine/State.lean ====
section
/-! DEFINITION. The state of the core (10_state.md R10), the agents around it that one run must hold
(00_scope.md R5), and the state after hardware reset (R26). -/

namespace Sys2Proof.Machine

/-- The parameter registers (R12): the seven binary32 words of the Parameter Store. -/
structure Params where
  clipping : Word
  sclip : Word
  drive : Word
  compress : Word
  waveshape : Word
  bass : Word
  high : Word
  deriving DecidableEq, Repr

/-- One filter cell (R15): the input last presented, the last unscaled output. -/
structure FilterCell where
  pin : Word
  pout : Word
  deriving DecidableEq, Repr

/-- The filter memory (R15, R16): `C1_PIN`, `C1_POUT`, `C2_PIN`, `C2_POUT`, `BT`, `BTINC`. -/
structure FilterMemory where
  c1 : FilterCell
  c2 : FilterCell
  bt : DWord
  btinc : DWord
  deriving DecidableEq, Repr

/-- `CH`: 0 = left, 1 = right (R19). -/
inductive Channel where
  | left
  | right
  deriving DecidableEq, Repr

/-- The block sequencer (R19): `BUSY`, `SRC`, `DST`, `FCNT`, `FIDX`, `CH`. -/
structure Sequencer where
  busy : Bool
  src : CellAddr
  dst : CellAddr
  fcnt : BitVec 32
  fidx : BitVec 32
  ch : Channel
  deriving DecidableEq, Repr

/-- The two command ports (R22, 30_encoding.md R48). -/
inductive Port where
  | A
  | C
  deriving DecidableEq, Repr

/-- One command port: its latch (`PENDA`, `PENDC`, R22), the responses it has issued, oldest first (R49,
60_exceptions.md R110), and the commands its host context will present, oldest first (R5). -/
structure PortState where
  pend : Option Command
  rsp : List ResponseWord
  host : List Command
  deriving DecidableEq, Repr

/-- What the platform can do between two steps: write a cell of the sample memory it owns (20_memory.md R36,
R41), or give a hardware reset (70_reset_and_hazards.md R122, R126). -/
inductive PlatformEvent where
  | store (a : CellAddr) (v : Word)
  | hardwareReset
  deriving DecidableEq, Repr

/-- Sample memory in its byte view (20_memory.md R30): addresses strictly rising, no entry equal to what an
unlisted byte reads as. -/
abbrev Memory := List Host.Cell

/-- The core cannot fault: "The core raises no synchronous exception" (60_exceptions.md R107), and no
memory access can fail (20_memory.md R32). So there is no reason to stop with a fault, and this type has
no constructor. -/
inductive Fault where
  deriving DecidableEq, Repr

/-- Why the model has no meaning for an operation. -/
inductive Refusal where
  /-- raised by `exec` for an operation the model gives no meaning yet: a gap of the model, safe. No
  operation is in that case. -/
  | notModelled (mnemonic : String)
  deriving DecidableEq, Repr

structure State where
  /-- the parameter registers (R12) -/
  par : Params
  /-- the filter memory (R15, R16) -/
  fm : FilterMemory
  /-- the sine ROM, 4096 words (R17) -/
  rom : List Word
  /-- the string buffer, sixteen bytes (R18) -/
  strbuf : Vector Byte 16
  /-- the block sequencer (R19) -/
  seq : Sequencer
  /-- the sample accumulator (R21) -/
  acc : Word
  /-- port A: `PENDA`, its responses, its host context (R22) -/
  portA : PortState
  /-- port C: `PENDC`, its responses, its host context (R22) -/
  portC : PortState
  /-- the sample memory (20_memory.md R28) -/
  mem : Memory
  /-- the MODEL's own: the platform's coming events (log entry 7) -/
  platform : List PlatformEvent
  /-- the MODEL's own: the port whose command is being executed (log entry 9) -/
  serving : Port
  /-- the MODEL's own: how many contested choices the arbiter has made (log entry 6) -/
  turn : Nat
  deriving DecidableEq, Repr

/-- The parameter registers after hardware reset (R26): `DRIVE` holds 0.2, the others `+0.0`. -/
def Params.reset : Params :=
  { clipping := posZero, sclip := posZero, drive := K0_2, compress := posZero, waveshape := posZero,
    bass := posZero, high := posZero }

/-- The cleared filter memory (R26, 42_audio_commands.md R80): every register `+0.0`. -/
def FilterMemory.clear : FilterMemory :=
  { c1 := ⟨posZero, posZero⟩, c2 := ⟨posZero, posZero⟩, bt := posZero64, btinc := posZero64 }

/-- The sequencer after hardware reset: `BUSY` is 0 (R26). The other registers are unspecified there and are
set to zero: DESIGN CHOICE, log entry 3 (U8 allows it). -/
def Sequencer.reset : Sequencer :=
  { busy := false, src := 0, dst := 0, fcnt := 0, fidx := 0, ch := .left }

/-- A port after reset: its latch empty (R26), no response issued, no command waiting. -/
def PortState.reset : PortState := { pend := none, rsp := [], host := [] }

/-- The state after hardware reset (R26, R122). `ACC` is unspecified there and set to zero (log entry 3);
the sample memory lists nothing (log entry 1); no agent has anything to do (log entry 7). -/
def State.reset : State :=
  { par := Params.reset, fm := FilterMemory.clear, rom := Config.platform.sineRom,
    strbuf := Vector.replicate 16 0, seq := Sequencer.reset, acc := posZero,
    portA := PortState.reset, portC := PortState.reset, mem := [], platform := [],
    serving := .A, turn := 0 }

end Sys2Proof.Machine
end

