-- ==== Sys2Proof/Machine/Operands.lean ====
section
/-! DEFINITION. The operand forms of the commands: a parameter selected by its id, the normalised value of
an integer, the effective address of a sample, and the decimal string of an integer. -/

namespace Sys2Proof.Machine

/-! ### Parameters (41_parameter_commands.md R73, R74) -/

/-- The normalisation function: one conversion, one division by 100 (R73). -/
def NORM (v : Int) : Word := fdiv (i2f v) f100

/-- `scaledClipping = clipping² × 20` (10_state.md R13). -/
def scaledClipping (n : Word) : Word := fmul (fmul n n) f20

/-- `2n − 1` (R57, R74). -/
def waveshapeOf (n : Word) : Word := fsub (fmul f2 n) f1

/-- SETP's write, by id; `CLIPPING` and `SCLIP` together; an unknown id writes nothing (R74, R75). -/
def Params.write (p : Params) (id : Nat) (v : Int) : Params :=
  match id with
  | 0 => { p with clipping := NORM v, sclip := scaledClipping (NORM v) }
  | 1 => { p with drive := NORM v }
  | 2 => { p with compress := NORM v }
  | 3 => { p with waveshape := waveshapeOf (NORM v) }
  | 4 => { p with bass := NORM v }
  | 5 => { p with high := NORM v }
  | _ => p

/-- The inverse of `value/100` (R74, R76). -/
def percentOf (r : Word) : Int := f2i (fmul r f100)

/-- GETP's read, by id, computed from the register; an unknown id reads 0 (R74, R76). -/
def Params.read (p : Params) (id : Nat) : Int :=
  match id with
  | 0 => percentOf p.clipping
  | 1 => percentOf p.drive
  | 2 => percentOf p.compress
  | 3 => f2i (fmul (fadd p.waveshape f1) f50)
  | 4 => percentOf p.bass
  | 5 => percentOf p.high
  | _ => 0

/-- Every parameter register lies in its range (R12, R14, R27 I-6): the premise of the spec's claims about
sample steps (93_implementation_defined.md U1). -/
def Params.inRange (p : Params) : Bool :=
  let within (lo r hi : Word) : Bool := fle lo r && fle r hi
  within posZero p.clipping f1 && within posZero p.sclip f20 && within posZero p.drive f1 &&
    within posZero p.compress f1 && within 0xC0400000#32 p.waveshape f1 &&
    within posZero p.bass f1 && within posZero p.high f1

/-! ### Addresses (20_memory.md R34, 42_audio_commands.md R85) -/

/-- The number of a channel: 0 left, 1 right (R19). -/
def Channel.num : Channel → BitVec 32
  | .left => 0
  | .right => 1

/-- `CH xor 1`. -/
def Channel.other : Channel → Channel
  | .left => .right
  | .right => .left

/-- `(base + 2×FIDX + CH) mod 2^32`. -/
def effectiveAddress (base : CellAddr) (fidx : BitVec 32) (ch : Channel) : CellAddr :=
  base + 2 * fidx + ch.num

/-- The input cell of the next sample step. -/
def addrIn (q : Sequencer) : CellAddr := effectiveAddress q.src q.fidx q.ch

/-- The output cell of the next sample step. -/
def addrOut (q : Sequencer) : CellAddr := effectiveAddress q.dst q.fidx q.ch

/-! ### Decimal strings (40_numerics.md R71, 41_parameter_commands.md R77) -/

/-- The base-10 digits of a number below `10^fuel`, most significant first, as ASCII bytes; 0 gives one
digit. -/
def decDigits : Nat → Nat → List Byte
  | 0, _ => []
  | fuel + 1, m =>
    if m < 10 then [BitVec.ofNat 8 (0x30 + m)]
    else decDigits fuel (m / 10) ++ [BitVec.ofNat 8 (0x30 + m % 10)]

/-- `DEC(v)`: a minus sign for a negative integer, then the digits of its magnitude (R71). A magnitude is
at most 2^31, so ten digits are enough. -/
def DEC (v : Int) : List Byte :=
  (if v < 0 then [0x2D#8] else []) ++ decDigits 10 v.natAbs

/-- The string GETSTR makes: the numeral and a percent sign (R77). -/
def percentString (v : Int) : List Byte := DEC v ++ [0x25#8]

/-- `STRBUF[k] <- (if k < L then s[k] else 0x00)` for `k` = 0 to 15 (R77). -/
def fillString (s : List Byte) : Vector Byte 16 :=
  #v[s.getD 0 0, s.getD 1 0, s.getD 2 0, s.getD 3 0, s.getD 4 0, s.getD 5 0, s.getD 6 0, s.getD 7 0,
    s.getD 8 0, s.getD 9 0, s.getD 10 0, s.getD 11 0, s.getD 12 0, s.getD 13 0, s.getD 14 0, s.getD 15 0]

/-- The `str` field of a response: byte `k` at bits [8k+7:8k] (30_encoding.md R49). -/
def strField (b : Vector Byte 16) : BitVec 128 :=
  b[15] ++ b[14] ++ b[13] ++ b[12] ++ b[11] ++ b[10] ++ b[9] ++ b[8] ++ b[7] ++ b[6] ++ b[5] ++ b[4] ++
    b[3] ++ b[2] ++ b[1] ++ b[0]

end Sys2Proof.Machine
end

