-- ==== Sys2Proof/Machine/Ops.lean ====
section
/-! DEFINITION. The shared operations over the state: one home for every register, the sample memory, the
response of a command, turning a command away (which stands where a processor takes an exception),
clearing the filter memory, and hardware reset. -/

namespace Sys2Proof.Machine

/-! ### Registers -/

def State.setPar (s : State) (p : Params) : State := { s with par := p }
def State.setFm (s : State) (f : FilterMemory) : State := { s with fm := f }
def State.setStrbuf (s : State) (b : Vector Byte 16) : State := { s with strbuf := b }
def State.setSeq (s : State) (q : Sequencer) : State := { s with seq := q }
def State.setAcc (s : State) (x : Word) : State := { s with acc := x }
def State.setMem (s : State) (m : Memory) : State := { s with mem := m }
def State.setPlatform (s : State) (e : List PlatformEvent) : State := { s with platform := e }
def State.setServing (s : State) (p : Port) : State := { s with serving := p }
def State.setTurn (s : State) (n : Nat) : State := { s with turn := n }

def State.port (s : State) : Port → PortState
  | .A => s.portA
  | .C => s.portC

def State.setPort (s : State) (p : Port) (q : PortState) : State :=
  match p with
  | .A => { s with portA := q }
  | .C => { s with portC := q }

/-! ### Sample memory (20_memory.md R28 to R32) -/

/-- One past the greatest byte address: 2^32 cells of four bytes (R28, R30). -/
def memBytes : Nat := 17179869184

/-- The canonical form: addresses strictly rising and inside the memory, no entry equal to what an unlisted
byte reads as. -/
abbrev Memory.wf (m : Memory) : Prop :=
  m.Pairwise (fun x y => x.1 < y.1) ∧ ∀ c ∈ m, c.1 < memBytes ∧ c.2 ≠ Config.unlistedByte

/-- The byte at an address. -/
def readByte : Memory → Nat → Byte
  | [], _ => Config.unlistedByte
  | c :: m, a => if c.1 = a then c.2 else readByte m a

/-- The memory with one byte replaced; the canonical form is kept. -/
def writeByte : Memory → Nat → Byte → Memory
  | [], a, b => if b = Config.unlistedByte then [] else [(a, b)]
  | c :: m, a, b =>
    if a < c.1 then (if b = Config.unlistedByte then c :: m else (a, b) :: c :: m)
    else if c.1 = a then (if b = Config.unlistedByte then m else (a, b) :: m)
    else c :: writeByte m a b

/-- The address of byte 0 of a cell: cell `a` occupies bytes `4a` to `4a+3` (R30). -/
def cellBase (a : CellAddr) : Nat := 4 * a.toNat

/-- `MemRead(a, 4)`: the whole cell, least significant byte at `4a` (R30, R32). -/
def memRead (m : Memory) (a : CellAddr) : Word :=
  readByte m (cellBase a + 3) ++ readByte m (cellBase a + 2) ++ readByte m (cellBase a + 1) ++
    readByte m (cellBase a)

/-- `MemWrite(a, 4, v)`: the whole cell (R30, R32). -/
def memWrite (m : Memory) (a : CellAddr) (v : Word) : Memory :=
  writeByte (writeByte (writeByte (writeByte m (cellBase a) (v.extractLsb' 0 8))
    (cellBase a + 1) (v.extractLsb' 8 8)) (cellBase a + 2) (v.extractLsb' 16 8))
    (cellBase a + 3) (v.extractLsb' 24 8)

/-! ### Responses (30_encoding.md R49, R50) -/

/-- The response word from its fields; bits [175:160] are zero (R49). -/
def responseWord (status op : Byte) (value : BitVec 32) (str : BitVec 128) : ResponseWord :=
  status ++ op ++ 0#16 ++ value ++ str

/-- Issue the response of the command being executed: one word on the port it came from, whose latch the
core empties (10_state.md R22, R110). -/
def respond (status op : Byte) (value : BitVec 32) (str : BitVec 128) (s : State) : State :=
  s.setPort s.serving
    { (s.port s.serving) with
      pend := none
      rsp := (s.port s.serving).rsp ++ [responseWord status op value str] }

/-- The response of a command that was executed: `status = OK`. -/
def respondOk (op : Byte) (value : BitVec 32) (str : BitVec 128) (s : State) : State :=
  respond statusOk op value str s

/-- Turning a command away, for a reserved opcode (R46) or an audio-class opcode on port C (R48): no state
changes, and the response carries the status, `value = 0` and `str = 0`. The core has no exception to take
(60_exceptions.md R107, R113) and nothing to return from (R114); this is all that stands in its place. -/
def turnAway (status op : Byte) (s : State) : State := respond status op 0 0 s

/-- Port A accepts the audio class, port C turns it away (R48). -/
def audioClass (op : Byte) (effect : State → State) (s : State) : State :=
  match s.serving with
  | .A => effect s
  | .C => turnAway statusNotPermitted op s

/-! ### Filter memory and reset -/

/-- `ClearFM`, the six writes of INIT, RESET and hardware reset (42_audio_commands.md R80). -/
def clearFM (s : State) : State := s.setFm FilterMemory.clear

/-- Hardware reset as an event (70_reset_and_hazards.md R122, R126): parameters to their defaults, filter
memory and string buffer cleared, `BUSY` 0, both latches emptied and any command in flight abandoned
without a response. The ROM holds its image and the sample memory is not touched; what the hosts and the
platform hold outside the core stays. The sequencer's other registers and `ACC` are unspecified after
reset and go to zero (log entry 3). -/
def hardwareReset (s : State) : State :=
  { s with
    par := Params.reset
    fm := FilterMemory.clear
    strbuf := State.reset.strbuf
    seq := Sequencer.reset
    acc := posZero
    portA := { s.portA with pend := none }
    portC := { s.portC with pend := none } }

end Sys2Proof.Machine
end

