-- ==== Sys2Proof/Machine/Audio.lean ====
section
/-! DEFINITION. The audio-class commands (42_audio_commands.md), accepted on port A only (30_encoding.md
R48). PROCESS takes three kinds of step (R83): its start is here as the command's own effect, its end
below; the sample steps between them are in Machine/Sequencer.lean. -/

namespace Sys2Proof.Machine

/-- **INIT** (R81): `ClearFM`, then the response with value 0, which means success. -/
def execInit (s : State) : Host.Outcome State Fault Refusal :=
  .next (audioClass opInit (fun s => respondOk opInit 0 0 (clearFM s)) s)

/-- **RESET** (R82): `ClearFM`, then the response; it differs from INIT in `opecho` only. -/
def execReset (s : State) : Host.Outcome State Fault Refusal :=
  .next (audioClass opReset (fun s => respondOk opReset 0 0 (clearFM s)) s)

/-- PROCESS start (R83, S3): the command stays in its latch until the end step. -/
def startProcess (src dst : CellAddr) (n : Nat) (s : State) : State :=
  s.setSeq { busy := true, src := src, dst := dst, fcnt := BitVec.ofNat 32 n, fidx := 0, ch := .left }

/-- **PROCESS** (R83): on port A the block sequencer starts. -/
def execProcess (src dst : CellAddr) (n : Nat) (s : State) : Host.Outcome State Fault Refusal :=
  .next (audioClass opProcess (startProcess src dst n) s)

/-- PROCESS end (R83, S5): `BUSY <- 0`, the response, `PENDA <- empty`. -/
def endProcess (s : State) : State :=
  respondOk opProcess 0 0 ((s.setSeq { s.seq with busy := false }).setServing .A)

end Sys2Proof.Machine
end

