-- ==== Sys2Proof/Machine/Parameter.lean ====
section
/-! DEFINITION. The parameter-class commands (41_parameter_commands.md), accepted on both ports, each one
atomic step that ends with its response. -/

namespace Sys2Proof.Machine

/-- **SETP** (R75): the register of `id` receives what its formula gives, whatever the value; an unknown id
changes nothing. -/
def execSetp (id : Nat) (value : Int) (s : State) : Host.Outcome State Fault Refusal :=
  .next (respondOk opSetp 0 0 (s.setPar (s.par.write id value)))

/-- **GETP** (R76): the integer computed from the register of `id`; no state change. -/
def execGetp (id : Nat) (s : State) : Host.Outcome State Fault Refusal :=
  .next (respondOk opGetp (BitVec.ofInt 32 (s.par.read id)) 0 s)

/-- **GETSTR** (R77): the percent string of the operand into `STRBUF`, its length and a copy of the buffer
in the response; the id is not used. -/
def execGetstr (_id : Nat) (value : Int) (s : State) : Host.Outcome State Fault Refusal :=
  .next (respondOk opGetstr (BitVec.ofNat 32 (percentString value).length)
    (strField (fillString (percentString value)))
    (s.setStrbuf (fillString (percentString value))))

/-- **GETBMP** (R78): the null handle; both operands are ignored. -/
def execGetbmp (_id : Nat) (_value : Int) (s : State) : Host.Outcome State Fault Refusal :=
  .next (respondOk opGetbmp 0 0 s)

end Sys2Proof.Machine
end

