-- ==== Sys2Proof/Machine/Pipeline.lean ====
section
/-! DEFINITION. The stage operations of the sample pipeline (43_sample_pipeline.md) and the interpolated
lookup (44_sine_lut.md). Each works on `ACC` (10_state.md R21). A stage's arithmetic is a function of its
own, over the elementary units it is given, so that it can be evaluated with the reference units
(Machine/Reference.lean) as well as run with the platform's. -/

namespace Sys2Proof.Machine

open Sys2Proof.Config

/-! ### Stage functions -/

/-- CLIP (R89). -/
def clipValue (p : Params) (x : Word) : Word :=
  if feq0 p.sclip then x else clamp (fadd x (fmul x p.sclip)) fm1 f1

/-- `freq = 0.2 + 0.8 × BASS` (R90). -/
def cellFreq (bass : Word) : Word := fadd K0_2 (fmul K0_8 bass)

/-- The gain `1 + BASS × 2` (R90). -/
def cellGain (bass : Word) : Word := fadd f1 (fmul bass f2)

/-- `boosted = (1 − freq) × prevOut + freq × (x + prevIn) / 2` (R90). -/
def cellBoosted (bass : Word) (c : FilterCell) (x : Word) : Word :=
  fadd (fmul (fsub f1 (cellFreq bass)) c.pout) (fdiv (fmul (cellFreq bass) (fadd x c.pin)) f2)

/-- The filter cell function (R90): the cell keeps its input and the unscaled output, and returns the
scaled one. -/
def cellStep (bass : Word) (c : FilterCell) (x : Word) : FilterCell × Word :=
  (⟨x, cellBoosted bass c x⟩, fmul (cellBoosted bass c x) (cellGain bass))

/-- One application of `output = input + input × boostTime` in binary64, rounded once (R64, R93). -/
def highPass (bt : DWord) (x : Word) : Word := d2f (dadd (f2d x) (dmul (f2d x) bt))

/-- DRIVE (R95). -/
def driveValue (u : ElemUnits) (p : Params) (x : Word) : Word :=
  if feq0 p.drive then x else u.tanh32 (fmul x (fadd f1 (fmul p.drive f5)))

/-- The exponent `1 − compress × 0.8` (R96). -/
def compExponent (p : Params) : Word := fsub f1 (fmul p.compress K0_8)

/-- COMP (R96): the else arm is taken for `x ≤ 0` and for a NaN. -/
def compValue (u : ElemUnits) (p : Params) (x : Word) : Word :=
  if feq0 p.compress then x
  else if fgt0 x then u.pow32 x (compExponent p)
  else fneg (u.pow32 (fneg x) (compExponent p))

/-- The fractional part `x − floor(x)` (44_sine_lut.md R104). -/
def lutiFrac (x : Word) : Word := fsub x (ffloor x)

/-- The table position (R104). -/
def lutiPos (x : Word) : Word := fmul (lutiFrac x) f4095

/-- The lower index (R104). -/
def lutiIndex (x : Word) : Nat := (f2i (lutiPos x)).toNat

/-- The upper index: a 12-bit increment, so that index 4095 goes on to index 0 (R104, R105). -/
def lutiNext (i : Nat) : Nat := (i + 1) % romSize

/-- The blend weight (R104). -/
def lutiWeight (x : Word) : Word := fsub (lutiPos x) (i2f (lutiIndex x))

/-- A word of the ROM (R17). -/
def romWord (rom : List Word) (i : Nat) : Word := rom.getD i posZero

/-- `LUTI(x)` (R104). -/
def lutiValue (rom : List Word) (x : Word) : Word :=
  if isNaN x || isInf x then QNAN32
  else
    fadd (fmul (fsub f1 (lutiWeight x)) (romWord rom (lutiIndex x)))
      (fmul (lutiWeight x) (romWord rom (lutiNext (lutiIndex x))))

/-- WSHAPE (R97): two different arms, and the identity at zero. -/
def wshapeValue (u : ElemUnits) (p : Params) (rom : List Word) (x : Word) : Word :=
  if fgt0 p.waveshape then fadd x (fmul (fmul p.waveshape (u.sin32 x)) f2)
  else if flt0 p.waveshape then fadd x (fmul (fneg p.waveshape) (lutiValue rom x))
  else x

/-- SAT (R98): always applied. -/
def satValue (u : ElemUnits) (x : Word) : Word := u.tanh32 x

/-! ### Stage operations on the state -/

def clipStage (s : State) : State := s.setAcc (clipValue s.par s.acc)

/-- BASS1 (R91): bypassed when `BASS` is zero, and then cell 1 is left alone. -/
def bass1Stage (s : State) : State :=
  if feq0 s.par.bass then s
  else
    let r := cellStep s.par.bass s.fm.c1 s.acc
    (s.setFm { s.fm with c1 := r.1 }).setAcc r.2

/-- BASS2 (R92): the same over cell 2. -/
def bass2Stage (s : State) : State :=
  if feq0 s.par.bass then s
  else
    let r := cellStep s.par.bass s.fm.c2 s.acc
    (s.setFm { s.fm with c2 := r.1 }).setAcc r.2

/-- One of HIGH's two passes: the transform, then `BT <- BT + BTINC` (R93). -/
def highPassStage (s : State) : State :=
  (s.setAcc (highPass s.fm.bt s.acc)).setFm { s.fm with bt := dadd s.fm.bt s.fm.btinc }

/-- HIGH (R93): bypassed when `HIGH` is zero; the value of `HIGH` enters no formula. -/
def highStage (s : State) : State :=
  if feq0 s.par.high then s else highPassStage (highPassStage s)

def driveStage (u : ElemUnits) (s : State) : State := s.setAcc (driveValue u s.par s.acc)
def compStage (u : ElemUnits) (s : State) : State := s.setAcc (compValue u s.par s.acc)
def wshapeStage (u : ElemUnits) (s : State) : State := s.setAcc (wshapeValue u s.par s.rom s.acc)
def satStage (u : ElemUnits) (s : State) : State := s.setAcc (satValue u s.acc)
def lutiStage (s : State) : State := s.setAcc (lutiValue s.rom s.acc)

/-- `ProcessSample` (R88): the eight stages in their fixed order, on `ACC`. -/
def processSample (u : ElemUnits) (s : State) : State :=
  satStage u (wshapeStage u (compStage u (driveStage u (highStage (bass2Stage (bass1Stage
    (clipStage s)))))))

/-! ### The meanings -/

/-- **CLIP** (R89). -/
def execClip (s : State) : Host.Outcome State Fault Refusal := .next (clipStage s)
/-- **BASS1** (R91). -/
def execBass1 (s : State) : Host.Outcome State Fault Refusal := .next (bass1Stage s)
/-- **BASS2** (R92). -/
def execBass2 (s : State) : Host.Outcome State Fault Refusal := .next (bass2Stage s)
/-- **HIGH** (R93). -/
def execHigh (s : State) : Host.Outcome State Fault Refusal := .next (highStage s)
/-- **DRIVE** (R95). -/
def execDrive (s : State) : Host.Outcome State Fault Refusal := .next (driveStage Config.units s)
/-- **COMP** (R96). -/
def execComp (s : State) : Host.Outcome State Fault Refusal := .next (compStage Config.units s)
/-- **WSHAPE** (R97). -/
def execWshape (s : State) : Host.Outcome State Fault Refusal := .next (wshapeStage Config.units s)
/-- **SAT** (R98). -/
def execSat (s : State) : Host.Outcome State Fault Refusal := .next (satStage Config.units s)
/-- **LUTI** (44_sine_lut.md R104): as an operation of its own it looks up `ACC` (log entry 16). -/
def execLuti (s : State) : Host.Outcome State Fault Refusal := .next (lutiStage s)

end Sys2Proof.Machine
end

