-- ==== Sys2Proof/Machine/Dispatch.lean ====
section
/-! DEFINITION. One arm per operation of spec/opcode_table.json: its meaning. -/

namespace Sys2Proof.Machine

def exec (i : Instr) (s : State) : Host.Outcome State Fault Refusal :=
  match i with
  | .init => Sys2Proof.Machine.execInit s
  | .reset => Sys2Proof.Machine.execReset s
  | .process src dst n => Sys2Proof.Machine.execProcess src dst n s
  | .setp id value => Sys2Proof.Machine.execSetp id value s
  | .getp id => Sys2Proof.Machine.execGetp id s
  | .getstr id value => Sys2Proof.Machine.execGetstr id value s
  | .getbmp id value => Sys2Proof.Machine.execGetbmp id value s
  | .clip => Sys2Proof.Machine.execClip s
  | .bass1 => Sys2Proof.Machine.execBass1 s
  | .bass2 => Sys2Proof.Machine.execBass2 s
  | .high => Sys2Proof.Machine.execHigh s
  | .drive => Sys2Proof.Machine.execDrive s
  | .comp => Sys2Proof.Machine.execComp s
  | .wshape => Sys2Proof.Machine.execWshape s
  | .sat => Sys2Proof.Machine.execSat s
  | .luti => Sys2Proof.Machine.execLuti s

end Sys2Proof.Machine
end

