-- ==== Sys2Proof/Machine/Sequencer.lean ====
section
/-! DEFINITION. The steps of 60_exceptions.md R111 and which of them comes next: the sample step (S4), the
end of a PROCESS (S5), the command waiting on a port (S1, S2, S3), the steps of the two host contexts and of
the platform, and the arbiter's choice. -/

namespace Sys2Proof.Machine

open Sys2Proof.Config (Action)

/-! ### The sample step (42_audio_commands.md R84) -/

/-- The eight stage operations in their hardwired order (43_sample_pipeline.md R88). -/
def slotOrder : List Instr := [.clip, .bass1, .bass2, .high, .drive, .comp, .wshape, .sat]

/-- Each operation on the state the one before it left. -/
def runSlots : List Instr → State → Host.Outcome State Fault Refusal
  | [], s => .next s
  | i :: is, s =>
    match exec i s with
    | .next s' => runSlots is s'
    | .fault r => .fault r
    | .refused r => .refused r

/-- `ACC <- f32(MemRead(a_in, 4))`. -/
def loadSample (s : State) : State := s.setAcc (memRead s.mem (addrIn s.seq))

/-- `if CH = 1 then FIDX <- FIDX + 1 ; CH <- CH xor 1`. -/
def Sequencer.advance (q : Sequencer) : Sequencer :=
  match q.ch with
  | .left => { q with ch := .right }
  | .right => { q with fidx := q.fidx + 1, ch := .left }

/-- `MemWrite(a_out, 4, bits32(ACC))`, then the sequencer goes on. -/
def storeSample (s : State) : State :=
  (s.setMem (memWrite s.mem (addrOut s.seq) s.acc)).setSeq s.seq.advance

/-- The sample step (R84, S4): one atomic step. -/
def sampleStep (s : State) : Host.Outcome State Fault Refusal :=
  match runSlots slotOrder (loadSample s) with
  | .next s' => .next (storeSample s')
  | .fault r => .fault r
  | .refused r => .refused r

/-! ### Commands -/

/-- Execute the command in a port's latch: a reserved opcode is turned away with its own opcode echoed
(30_encoding.md R46), any other is executed. -/
def serveCommand (p : Port) (w : Command) (s : State) : Host.Outcome State Fault Refusal :=
  match decode (.command w) with
  | .ok i => exec i (s.setServing p)
  | .error _ => .next (turnAway statusUnknownOp (opField w) (s.setServing p))

/-- Port A's next step: while a PROCESS runs, a sample step (S4) or its end (S5); else the command in
`PENDA` (S2, S3). -/
def serveA (s : State) : Host.Outcome State Fault Refusal :=
  if s.seq.busy then
    if s.seq.fidx = s.seq.fcnt then .next (endProcess s) else sampleStep s
  else
    match s.portA.pend with
    | some w => serveCommand .A w s
    | none => .next s

/-- Port C's step (S1). -/
def serveC (s : State) : Host.Outcome State Fault Refusal :=
  match s.portC.pend with
  | some w => serveCommand .C w s
  | none => .next s

/-! ### The agents around the core -/

/-- A host context presents its next command into its empty latch (10_state.md R22). -/
def present (p : Port) (s : State) : State :=
  match (s.port p).pend, (s.port p).host with
  | none, w :: ws => s.setPort p { (s.port p) with pend := some w, host := ws }
  | _, _ => s

/-- The platform's next event: a cell of sample memory written (20_memory.md R36), or a hardware reset. -/
def platformStep (s : State) : State :=
  match s.platform with
  | [] => s
  | .store a v :: es => (s.setMem (memWrite s.mem a v)).setPlatform es
  | .hardwareReset :: es => (hardwareReset s).setPlatform es

/-! ### Which step comes next (R111, R112) -/

def enabled (s : State) : Action → Bool
  | .presentA => s.portA.pend.isNone && !s.portA.host.isEmpty
  | .presentC => s.portC.pend.isNone && !s.portC.host.isEmpty
  | .platform => !s.platform.isEmpty
  | .serveC => s.portC.pend.isSome
  | .serveA => s.seq.busy || s.portA.pend.isSome

def enabledActions (s : State) : List Action :=
  [Action.presentA, .presentC, .platform, .serveC, .serveA].filter (enabled s)

/-- The next action: none when nothing is enabled; the only one when one is; else the one the arbiter
prefers if it is enabled, and the turn goes on. -/
def chooseAction (s : State) : Option (Action × State) :=
  match enabledActions s with
  | [] => none
  | [a] => some (a, s)
  | a :: b :: as =>
    let p := Config.arbiter.prefer s.turn
    some (if p ∈ a :: b :: as then p else a, s.setTurn (s.turn + 1))

def takeAction (a : Action) (s : State) : Host.Outcome State Fault Refusal :=
  match a with
  | .presentA => .next (present .A s)
  | .presentC => .next (present .C s)
  | .platform => .next (platformStep s)
  | .serveC => serveC s
  | .serveA => serveA s

/-- One step. With nothing enabled the core is idle and keeps all its state (60_exceptions.md R121,
70_reset_and_hazards.md R123). -/
def nextStep (s : State) : Host.Outcome State Fault Refusal :=
  match chooseAction s with
  | none => .next s
  | some (a, s') => takeAction a s'

/-! ### Placing one operation for the very next step (log entries 12 and 13) -/

/-- No agent but port A has anything to do. -/
def onlyPortA (s : State) : State :=
  (s.setPort .C { s.portC with pend := none, host := [] }).setPlatform []

/-- A command waits in `PENDA` and no PROCESS runs, so the next step executes it. -/
def placeCommand (w : Command) (s : State) : State :=
  ((onlyPortA s).setPort .A { s.portA with pend := some w }).setSeq { s.seq with busy := false }

/-- A stage operation is fetched by the hardwired slot sequence, so the next step is a sample step: the
left sample of a one-frame PROCESS. LUTI is reached by the negative arm of WSHAPE. -/
def placeLabel (l : BitVec 4) (s : State) : State :=
  let w := commandWord opProcess 0 s.seq.src s.seq.dst 1
  let s' := ((onlyPortA s).setPort .A { s.portA with pend := some w }).setSeq
    { s.seq with busy := true, fcnt := 1, fidx := 0, ch := .left }
  if l = 9 then s'.setPar { s.par with waveshape := fm1 } else s'

def placeCode (c : Code) (s : State) : State :=
  match c with
  | .command w => placeCommand w s
  | .label l => placeLabel l s

end Sys2Proof.Machine
end

