-- ==== Sys2Proof/Machine/Step.lean ====
section
/-! DEFINITION. One step of the machine, and how one operation is placed so that the next step runs it. -/

namespace Sys2Proof.Machine

/-- One step: one atomic step of the core, of a host context or of the platform (60_exceptions.md R111). -/
def step (s : State) : Host.Outcome State Fault Refusal := nextStep s

/-- The state with an operation placed where the next step takes it from: a command word in `PENDA`, a
stage label in the slot sequence (log entry 13). -/
def State.withFetchWord (s : State) (nbits w : Nat) : State := placeCode (tableCode nbits w) s

end Sys2Proof.Machine
end

