-- ==== Sys2Proof/Safety.lean ====
section
/-! DEFINITION. The terms the claims use: the invariants of 10_state.md R27, the response of a command, and a
reader for the numerals of 40_numerics.md R71 that owes nothing to how the model writes them. -/

namespace Sys2Proof.Machine

/-! ### Invariants of every reachable state (10_state.md R13, R16, R18, R27) -/

/-- (I-3) Every parameter register is finite. -/
def Params.finite (p : Params) : Prop :=
  isFinite p.clipping = true ∧ isFinite p.sclip = true ∧ isFinite p.drive = true ∧
    isFinite p.compress = true ∧ isFinite p.waveshape = true ∧ isFinite p.bass = true ∧
    isFinite p.high = true

/-- (I-4) While BUSY is 1, PENDA holds the PROCESS command being run, its operands are in the sequencer,
`FIDX ≤ FCNT`, and `FIDX = FCNT` implies `CH = 0`. -/
def State.busyOk (s : State) : Prop :=
  s.seq.busy = true → ∃ w src dst n, s.portA.pend = some w ∧ decodeCommand w = .ok (.process src dst n) ∧
    s.seq.src = src ∧ s.seq.dst = dst ∧ s.seq.fcnt.toNat = n ∧
    s.seq.fidx.toNat ≤ s.seq.fcnt.toNat ∧ (s.seq.fidx = s.seq.fcnt → s.seq.ch = .left)

/-- R18: STRBUF holds sixteen zero bytes, or 2 to 12 ASCII characters followed by zero bytes. -/
def strbufOk (b : Vector Byte 16) : Prop :=
  (∀ k : Fin 16, b[k] = 0) ∨
    ∃ n, 2 ≤ n ∧ n ≤ 12 ∧ ∀ k : Fin 16,
      if k.val < n then b[k] ≠ 0 ∧ b[k].toNat < 128 else b[k] = 0

/-- The invariants (I-1) to (I-5) of R27, with the form of STRBUF and of the memory. -/
structure MachineInv (s : State) : Prop where
  /-- (I-1) `SCLIP = CLIPPING² × 20` -/
  sclip : s.par.sclip = fmul (fmul s.par.clipping s.par.clipping) 0x41A00000#32
  /-- (I-2) `BTINC = +0.0` and `BT = +0.0` -/
  boost : s.fm.bt = 0#64 ∧ s.fm.btinc = 0#64
  /-- (I-3) -/
  finite : s.par.finite
  /-- (I-4) -/
  busy : s.busyOk
  /-- (I-5) the ROM equals its constant image -/
  rom : s.rom = Config.platform.sineRom
  /-- R18 -/
  strbuf : strbufOk s.strbuf
  /-- the sample memory is in canonical form -/
  mem : s.mem.wf

/-! ### Responses (30_encoding.md R49, 60_exceptions.md R110) -/

/-- The state after the command of the served port is answered with `w`: its latch is empty and `w` is
appended to the port's responses. -/
def answered (s : State) (w : ResponseWord) : State :=
  match s.serving with
  | .A => { s with portA := { s.portA with pend := none, rsp := s.portA.rsp ++ [w] } }
  | .C => { s with portC := { s.portC with pend := none, rsp := s.portC.rsp ++ [w] } }

/-- Only port A has anything to do: nothing waits on port C and the platform is still. -/
def onlyAEnabled (s : State) : Prop :=
  s.portC.pend = none ∧ s.portC.host = [] ∧ s.platform = []

/-- Only port C has anything to do: no PROCESS runs, nothing waits on port A and the platform is still. -/
def onlyCEnabled (s : State) : Prop :=
  s.seq.busy = false ∧ s.portA.pend = none ∧ s.portA.host = [] ∧ s.platform = []

/-! ### Rounding (40_numerics.md R56) -/

/-- `r` is the finite binary32 value nearest to `v`, and of two equally near ones the one with an even
fraction. -/
def isNearestEven (r : Word) (v : ℚ) : Prop :=
  isFinite r = true ∧ ∀ w : Word, isFinite w = true → fvalue w ≠ fvalue r →
    |fvalue r - v| < |fvalue w - v| ∨ (|fvalue r - v| = |fvalue w - v| ∧ r.toNat % 2 = 0)

/-- From this magnitude on a result rounds to an infinity: halfway between the largest finite value and
`2^128`. -/
def overflowBound : ℚ := 2 ^ 128 - 2 ^ 103

/-! ### Decimal numerals (40_numerics.md R71) -/

/-- Digits to a number, from what the digits before them stand for. -/
def readDigits : List Byte → Nat → Option Nat
  | [], n => some n
  | b :: bs, n => if 48 ≤ b.toNat ∧ b.toNat ≤ 57 then readDigits bs (10 * n + (b.toNat - 48)) else none

/-- An unsigned numeral: at least one digit, and a leading zero only when it is the only digit. -/
def readNumeral : List Byte → Option Nat
  | [] => none
  | b :: bs => if b = 48#8 ∧ bs ≠ [] then none else readDigits (b :: bs) 0

/-- The shortest decimal numeral of an integer: a minus sign for a negative one only. -/
def readDecimal : List Byte → Option Int
  | [] => none
  | b :: bs =>
    if b = 45#8 then
      match readNumeral bs with
      | some n => if n = 0 then none else some (-(n : Int))
      | none => none
    else (readNumeral (b :: bs)).map fun n => (n : Int)

end Sys2Proof.Machine
end

