-- ==== Sys2Proof/Certificates/Slice0/Obligations.lean ====
section
/-! DEFINITION. The statements for the provers, each about the machine and none about a program. -/

open Sys2Proof Sys2Proof.Machine

/-! ### Encoding -/

/-- 30_encoding.md R43 to R47, R54: decoding the code of a well-formed operation gives it back, every
operand at every value its field admits. -/
def Obligations.DecodeEncodeAgree : Prop :=
  ∀ i : Instr, i.wf = true → decode (encode i) = .ok i

/-- R44, R45: the opcode alone selects the command, the operands are the stated fields, and every other
opcode is reserved. -/
def Obligations.OpcodeSelectsCommand : Prop :=
  ∀ w : Command,
    let op := w.extractLsb' 120 8
    let id := (w.extractLsb' 112 8).toNat
    let value := (w.extractLsb' 0 32).toInt
    (op = 0x01#8 → decode (.command w) = .ok .init) ∧
    (op = 0x02#8 → decode (.command w) = .ok .reset) ∧
    (op = 0x03#8 → decode (.command w) =
      .ok (.process (w.extractLsb' 64 32) (w.extractLsb' 32 32) (w.extractLsb' 0 32).toNat)) ∧
    (op = 0x10#8 → decode (.command w) = .ok (.setp id value)) ∧
    (op = 0x11#8 → decode (.command w) = .ok (.getp id)) ∧
    (op = 0x12#8 → decode (.command w) = .ok (.getstr id value)) ∧
    (op = 0x13#8 → decode (.command w) = .ok (.getbmp id value)) ∧
    (op ∉ [0x01#8, 0x02#8, 0x03#8, 0x10#8, 0x11#8, 0x12#8, 0x13#8] →
      decode (.command w) = .error (.reservedOpcode op))

/-- R47: fields a format does not use are not decoded: any pattern in them decodes as zero does; and an
encoder emits zero in them. -/
def Obligations.UnusedFieldsAreNotDecoded : Prop :=
  (∀ (id : Byte) (r : BitVec 16) (a b c : BitVec 32),
    let word (op id : Byte) (r : BitVec 16) (a b c : BitVec 32) : Code :=
      .command (op ++ id ++ r ++ a ++ b ++ c)
    decode (word 0x01 id r a b c) = decode (word 0x01 0 0 0 0 0) ∧
    decode (word 0x02 id r a b c) = decode (word 0x02 0 0 0 0 0) ∧
    decode (word 0x03 id r a b c) = decode (word 0x03 0 0 a b c) ∧
    decode (word 0x10 id r a b c) = decode (word 0x10 id 0 0 0 c) ∧
    decode (word 0x11 id r a b c) = decode (word 0x11 id 0 0 0 0) ∧
    decode (word 0x12 id r a b c) = decode (word 0x12 id 0 0 0 c) ∧
    decode (word 0x13 id r a b c) = decode (word 0x13 id 0 0 0 c)) ∧
  ∀ i w, encode i = .command w →
    let op := w.extractLsb' 120 8
    w.extractLsb' 96 16 = 0 ∧
    (op ∈ [0x01#8, 0x02#8] → w.extractLsb' 0 120 = 0) ∧
    (op = 0x03#8 → w.extractLsb' 112 8 = 0) ∧
    (op ∈ [0x10#8, 0x12#8, 0x13#8] → w.extractLsb' 32 64 = 0) ∧
    (op = 0x11#8 → w.extractLsb' 0 96 = 0)

/-- What the decoder yields is well formed, from a command word or a slot label. -/
def Obligations.DecodedOperationsAreWellFormed : Prop :=
  ∀ c i, decode c = .ok i → i.wf = true

/-- Words written out from the spec's encoding (95_test_vectors.md 2.1, programs P2 and P6; slot labels of
R54) decode to the operations they stand for. -/
def Obligations.SpecWordsDecode : Prop :=
  decode (.command 0x01000000_00000000_00000000_00000000#128) = .ok .init ∧
  decode (.command 0x02000000_00000000_00000000_00000000#128) = .ok .reset ∧
  decode (.command 0x03000000_00001000_00002000_00000001#128) = .ok (.process 0x1000 0x2000 1) ∧
  decode (.command 0x10030000_00000000_00000000_FFFFFF9C#128) = .ok (.setp 3 (-100)) ∧
  decode (.command 0x1001BEEF_DEADBEEF_CAFEF00D_00000014#128) = .ok (.setp 1 20) ∧
  decode (.command 0x11010000_00000000_00000000_00000000#128) = .ok (.getp 1) ∧
  decode (.command 0x12020000_00000000_00000000_FFFFFFFB#128) = .ok (.getstr 2 (-5)) ∧
  decode (.command 0x13030000_00000000_00000000_00003039#128) = .ok (.getbmp 3 12345) ∧
  decode (.command 0x7F000000_00000000_00000000_00000000#128) = .error (.reservedOpcode 0x7F) ∧
  decode (.label 0b0001#4) = .ok .clip ∧ decode (.label 0b1001#4) = .ok .luti

/-- R49: the fields of a response word. -/
def Obligations.ResponseWordLayout : Prop :=
  ∀ (status op : Byte) (value : BitVec 32) (str : BitVec 128),
    let r := responseWord status op value str
    r.extractLsb' 184 8 = status ∧ r.extractLsb' 176 8 = op ∧ r.extractLsb' 160 16 = 0#16 ∧
      r.extractLsb' 128 32 = value ∧ r.extractLsb' 0 128 = str

/-! ### Steps -/

/-- A step runs the decoded operation: with a command in PENDA, no PROCESS running and nothing else
enabled, the step is `exec` of it for port A; likewise for PENDC and port C. That the step records the port in
`serving` is the model's choice (log entry 9). -/
def Obligations.StepRunsDecodedCommand : Prop :=
  (∀ s w i, onlyAEnabled s → s.seq.busy = false → s.portA.pend = some w →
    decode (.command w) = .ok i → step s = exec i { s with serving := .A }) ∧
  (∀ s w i, onlyCEnabled s → s.portC.pend = some w →
    decode (.command w) = .ok i → step s = exec i { s with serving := .C })

/-- An operation placed by `withFetchWord` is the one the very next step runs. That a placed word stands in PENDA
is the model's choice (log entry 13). -/
def Obligations.PlacedCommandRunsNext : Prop :=
  ∀ (s : State) (w : Nat) (i : Instr), decodeTableWord 128 w = some i →
    step (s.withFetchWord 128 w) = exec i { s.withFetchWord 128 w with serving := .A }

/-- R46, R49: a reserved opcode that a port takes when no other agent has anything to do changes no state and is
answered with status 0x01, its own opcode echoed, value 0 and string 0. The record of the port in `serving` is the
model's choice (log entry 9). `PortCCommandsLeaveAudioStateAlone` has port C while a PROCESS runs. -/
def Obligations.ReservedOpcodeIsAnswered : Prop :=
  (∀ s w, onlyAEnabled s → s.seq.busy = false → s.portA.pend = some w →
    w.extractLsb' 120 8 ∉ [0x01#8, 0x02#8, 0x03#8, 0x10#8, 0x11#8, 0x12#8, 0x13#8] →
    step s = .next (answered { s with serving := .A } (responseWord 0x01 (w.extractLsb' 120 8) 0 0))) ∧
  (∀ s w, onlyCEnabled s → s.portC.pend = some w →
    w.extractLsb' 120 8 ∉ [0x01#8, 0x02#8, 0x03#8, 0x10#8, 0x11#8, 0x12#8, 0x13#8] →
    step s = .next (answered { s with serving := .C } (responseWord 0x01 (w.extractLsb' 120 8) 0 0)))

/-- 60_exceptions.md R111: every step is one of the steps of the spec, taken only when it is enabled; with
none enabled nothing happens. The only thing a contested choice adds is the arbiter's `turn`, the model's form of
the open choice (log entry 6); the queues of the hosts and the platform are the model's too (log entry 7). -/
def Obligations.EveryStepIsAnEnabledOne : Prop :=
  ∀ s t, step s = .next t →
    (t = s ∧ s.seq.busy = false ∧ s.portA.pend = none ∧ s.portA.host = [] ∧
      s.portC.pend = none ∧ s.portC.host = [] ∧ s.platform = []) ∨
    ∃ s', (s' = s ∨ s' = { s with turn := s.turn + 1 }) ∧
      ((∃ w, s.portC.pend = some w ∧ serveCommand .C w s' = .next t) ∨
       (∃ w, s.portA.pend = some w ∧ s.seq.busy = false ∧ serveCommand .A w s' = .next t) ∨
       (s.seq.busy = true ∧ s.seq.fidx ≠ s.seq.fcnt ∧ sampleStep s' = .next t) ∨
       (s.seq.busy = true ∧ s.seq.fidx = s.seq.fcnt ∧ t = endProcess s') ∨
       (∃ w ws, s.portA.pend = none ∧ s.portA.host = w :: ws ∧
         t = { s' with portA := { s.portA with pend := some w, host := ws } }) ∨
       (∃ w ws, s.portC.pend = none ∧ s.portC.host = w :: ws ∧
         t = { s' with portC := { s.portC with pend := some w, host := ws } }) ∨
       (∃ a v es, s.platform = .store a v :: es ∧
         t = { s' with mem := memWrite s.mem a v, platform := es }) ∨
       (∃ es, s.platform = .hardwareReset :: es ∧ t = { hardwareReset s' with platform := es }))

/-- R107, R108: no condition stops the core: every step from every state answers a next state. Where a parameter
register is out of range this rests on the model's choice to evaluate (log entry 10). -/
def Obligations.StepNeverStops : Prop := ∀ s, ∃ t, step s = .next t

/-! ### Audio-class commands -/

/-- 42_audio_commands.md R80, R81: INIT on port A clears the six registers of the filter memory, answers
OK with value 0 and touches nothing else; on port C it changes no state and is answered NOT_PERMITTED. -/
def Obligations.InitClearsFilterMemory : Prop :=
  ∀ s : State,
    (s.serving = .A → exec .init s = .next (answered { s with fm := ⟨⟨0, 0⟩, ⟨0, 0⟩, 0, 0⟩ }
      0x00010000_00000000_00000000_00000000_00000000_00000000#192)) ∧
    (s.serving = .C → exec .init s = .next (answered s
      0x02010000_00000000_00000000_00000000_00000000_00000000#192))

/-- R82: RESET does the same under its own opcode. -/
def Obligations.ResetClearsFilterMemory : Prop :=
  ∀ s : State,
    (s.serving = .A → exec .reset s = .next (answered { s with fm := ⟨⟨0, 0⟩, ⟨0, 0⟩, 0, 0⟩ }
      0x00020000_00000000_00000000_00000000_00000000_00000000#192)) ∧
    (s.serving = .C → exec .reset s = .next (answered s
      0x02020000_00000000_00000000_00000000_00000000_00000000#192))

/-- R83, start step: PROCESS on port A loads the sequencer and changes nothing else, the filter memory
included (R127); the command stays in its latch. On port C it is answered NOT_PERMITTED. -/
def Obligations.ProcessStarts : Prop :=
  ∀ (s : State) (src dst : CellAddr) (n : Nat), (Instr.process src dst n).wf = true →
    (s.serving = .A → exec (.process src dst n) s = .next { s with
      seq := { busy := true, src := src, dst := dst, fcnt := BitVec.ofNat 32 n, fidx := 0, ch := .left } }) ∧
    (s.serving = .C → exec (.process src dst n) s = .next (answered s
      0x02030000_00000000_00000000_00000000_00000000_00000000#192))

/-- R84, R88: a sample step reads its input cell, runs the eight stage operations in slot order, each on what
the one before it left, writes its output cell and advances the sequencer, in one step. -/
def Obligations.SampleStepRunsStagesInOrder : Prop :=
  ∀ s : State, s.par.inRange = true → onlyAEnabled s → s.seq.busy = true → s.seq.fidx ≠ s.seq.fcnt →
    s.portA.pend ≠ none →
    ∃ s₁ s₂ s₃ s₄ s₅ s₆ s₇ s₈ : State,
      let c : BitVec 32 := if s.seq.ch = .left then 0 else 1
      exec .clip { s with acc := memRead s.mem (s.seq.src + 2 * s.seq.fidx + c) } = .next s₁ ∧
      exec .bass1 s₁ = .next s₂ ∧ exec .bass2 s₂ = .next s₃ ∧ exec .high s₃ = .next s₄ ∧
      exec .drive s₄ = .next s₅ ∧ exec .comp s₅ = .next s₆ ∧ exec .wshape s₆ = .next s₇ ∧
      exec .sat s₇ = .next s₈ ∧
      step s = .next { s with
        acc := s₈.acc
        fm := s₈.fm
        mem := memWrite s.mem (s.seq.dst + 2 * s.seq.fidx + c) s₈.acc
        seq := { s.seq with
          fidx := if s.seq.ch = .left then s.seq.fidx else s.seq.fidx + 1
          ch := if s.seq.ch = .left then .right else .left } }

/-- 20_memory.md R32, R36; 42_audio_commands.md R85: a sample step stores to one cell, at the effective address
`(DST + 2×FIDX + CH) mod 2^32`; that cell then holds `ACC`, every byte outside its four reads as before. -/
def Obligations.SampleStepStoresOneCell : Prop :=
  ∀ (s t : State), onlyAEnabled s → s.seq.busy = true → s.seq.fidx ≠ s.seq.fcnt → s.portA.pend ≠ none →
    s.mem.wf → step s = .next t →
    memRead t.mem (addrOut s.seq) = t.acc ∧
    ∀ k, k < 4 * (addrOut s.seq).toNat ∨ 4 * (addrOut s.seq).toNat + 4 ≤ k →
      readByte t.mem k = readByte s.mem k

/-- R34: the addresses of a sample step, as the rule writes them over the naturals. -/
def Obligations.CellAddressesWrap : Prop :=
  ∀ q : Sequencer,
    let c := if q.ch = .left then 0 else 1
    (addrIn q).toNat = (q.src.toNat + 2 * q.fidx.toNat + c) % 2 ^ 32 ∧
      (addrOut q).toNat = (q.dst.toNat + 2 * q.fidx.toNat + c) % 2 ^ 32

/-- R83, end step: BUSY goes to 0 and the response is issued on port A, whose latch is emptied. The record of the
port in `serving` is the model's (log entry 9). -/
def Obligations.ProcessEnds : Prop :=
  ∀ s : State, onlyAEnabled s → s.seq.busy = true → s.seq.fidx = s.seq.fcnt → s.portA.pend ≠ none →
    step s = .next (answered { s with seq := { s.seq with busy := false }, serving := .A }
      0x00030000_00000000_00000000_00000000_00000000_00000000#192)

/-- R83, R87: PROCESS with frame count `n` ends after its start step, exactly `2n` sample steps and its end
step, with exactly one response; parameters, ROM and string buffer are as they were. Where a parameter register is
out of range this rests on the model's choice to evaluate (log entry 10). -/
def Obligations.ProcessRunsToCompletion : Prop :=
  ∀ (s : State) (w : Command) (src dst : CellAddr) (n : Nat),
    onlyAEnabled s → s.portA.host = [] → s.seq.busy = false → s.portA.pend = some w →
    decode (.command w) = .ok (.process src dst n) →
    ∃ t, core.run (2 * n + 2) s = .next t ∧ t.seq.busy = false ∧ t.portA.pend = none ∧
      t.portA.rsp = s.portA.rsp ++ [0x00030000_00000000_00000000_00000000_00000000_00000000#192] ∧
      t.portC = s.portC ∧ t.par = s.par ∧ t.rom = s.rom ∧ t.strbuf = s.strbuf ∧
      (∀ k, k < 2 * n + 2 → ∃ m, core.run k s = .next m ∧ m.portA.pend = some w ∧
        m.portA.rsp = s.portA.rsp)

/-! ### Parameter-class commands -/

/-- 41_parameter_commands.md R75: SETP, on either port, with any id and any value. -/
def Obligations.SetpWritesParameter : Prop :=
  ∀ (s : State) (id : Nat) (value : Int),
    let n := fdiv (i2f value) 0x42C80000#32
    let p : Params :=
      if id = 0 then { s.par with clipping := n, sclip := fmul (fmul n n) 0x41A00000#32 }
      else if id = 1 then { s.par with drive := n }
      else if id = 2 then { s.par with compress := n }
      else if id = 3 then { s.par with waveshape := fsub (fmul 0x40000000#32 n) 0x3F800000#32 }
      else if id = 4 then { s.par with bass := n }
      else if id = 5 then { s.par with high := n }
      else s.par
    exec (.setp id value) s = .next (answered { s with par := p }
      0x00100000_00000000_00000000_00000000_00000000_00000000#192)

/-- R76: GETP, on either port; the result is computed from the register, an unknown id answers 0, and no
state changes but the answer. -/
def Obligations.GetpAnswersParameter : Prop :=
  ∀ (s : State) (id : Nat),
    let r : Int :=
      if id = 0 then f2i (fmul s.par.clipping 0x42C80000#32)
      else if id = 1 then f2i (fmul s.par.drive 0x42C80000#32)
      else if id = 2 then f2i (fmul s.par.compress 0x42C80000#32)
      else if id = 3 then f2i (fmul (fadd s.par.waveshape 0x3F800000#32) 0x42480000#32)
      else if id = 4 then f2i (fmul s.par.bass 0x42C80000#32)
      else if id = 5 then f2i (fmul s.par.high 0x42C80000#32)
      else 0
    exec (.getp id) s = .next (answered s (responseWord 0x00 0x11 (BitVec.ofInt 32 r) 0))

/-- R71, R77: GETSTR, on either port and with any id, writes the shortest decimal numeral of the operand, a
percent sign and zeros to STRBUF, and answers its length and a copy. -/
def Obligations.GetstrFormatsPercent : Prop :=
  ∀ (s : State) (id : Nat) (value : Int), (Instr.getstr id value).wf = true →
    ∃ (b : Vector Byte 16) (n : Nat) (str : BitVec 128),
      exec (.getstr id value) s = .next (answered { s with strbuf := b }
        (responseWord 0x00 0x12 (BitVec.ofNat 32 n) str)) ∧
      2 ≤ n ∧ n ≤ 12 ∧ readDecimal (b.toList.take (n - 1)) = some value ∧
      (∀ k : Fin 16, k.val = n - 1 → b[k] = 0x25#8) ∧ (∀ k : Fin 16, n ≤ k.val → b[k] = 0) ∧
      (∀ k : Fin 16, str.extractLsb' (8 * k.val) 8 = b[k])

/-- R78: GETBMP answers the null handle for every id and value and changes no state. -/
def Obligations.GetbmpAnswersNull : Prop :=
  ∀ (s : State) (id : Nat) (value : Int),
    exec (.getbmp id value) s = .next (answered s
      0x00130000_00000000_00000000_00000000_00000000_00000000#192)

/-- R79: what GETP answers right after SETP, over the declared domains. -/
def Obligations.GetpAfterSetpRoundTrip : Prop :=
  ∀ (s t : State) (id : Nat) (v : Int), exec (.setp id v) s = .next t →
    (id ∈ [0, 1, 2, 4, 5] → 0 ≤ v → v ≤ 100 →
      exec (.getp id) t = .next (answered t (responseWord 0x00 0x11
        (BitVec.ofInt 32 (if v = 53 then 52 else if v = 59 then 58 else v)) 0))) ∧
    (id = 3 → -100 ≤ v → v ≤ 100 →
      exec (.getp id) t = .next (answered t (responseWord 0x00 0x11
        (BitVec.ofInt 32
          (if v ∈ [-84, -83, -82, -81, -80, -59, -58, -57, -56, -55, -54, -53, -42, -41, -40, -29, -28, -27,
              -21, -20, -16, -15, -14, -8, -7, -3, -2, -1] then v + 1
            else if v ∈ [1, 4, 7, 8, 10, 14, 20, 21, 53, 59] then v - 1
            else v)) 0)))

/-! ### Stage operations. Each is stated for parameter registers in range, where the spec defines sample
steps (93_implementation_defined.md U1); `StagesAlwaysComplete` covers the rest. -/

/-- 43_sample_pipeline.md R89, 40_numerics.md R63. -/
def Obligations.ClipStage : Prop :=
  ∀ s : State, s.par.inRange = true →
    let u := fadd s.acc (fmul s.acc s.par.sclip)
    exec .clip s = .next { s with
      acc :=
        if feq0 s.par.sclip then s.acc
        else if flt u 0xBF800000#32 then 0xBF800000#32
        else if fgt u 0x3F800000#32 then 0x3F800000#32
        else u }

/-- R90, R91: BASS1 is the cell function over cell 1, and leaves everything alone when `BASS` is zero. -/
def Obligations.Bass1Stage : Prop :=
  ∀ s : State, s.par.inRange = true →
    let freq := fadd 0x3E4CCCCD#32 (fmul 0x3F4CCCCD#32 s.par.bass)
    let boosted := fadd (fmul (fsub 0x3F800000#32 freq) s.fm.c1.pout)
      (fdiv (fmul freq (fadd s.acc s.fm.c1.pin)) 0x40000000#32)
    (feq0 s.par.bass = true → exec .bass1 s = .next s) ∧
    (feq0 s.par.bass = false → exec .bass1 s = .next { s with
      fm := { s.fm with c1 := { pin := s.acc, pout := boosted } }
      acc := fmul boosted (fadd 0x3F800000#32 (fmul s.par.bass 0x40000000#32)) })

/-- R90, R92: BASS2 is the cell function over cell 2, and leaves everything alone when `BASS` is zero. -/
def Obligations.Bass2Stage : Prop :=
  ∀ s : State, s.par.inRange = true →
    let freq := fadd 0x3E4CCCCD#32 (fmul 0x3F4CCCCD#32 s.par.bass)
    let boosted := fadd (fmul (fsub 0x3F800000#32 freq) s.fm.c2.pout)
      (fdiv (fmul freq (fadd s.acc s.fm.c2.pin)) 0x40000000#32)
    (feq0 s.par.bass = true → exec .bass2 s = .next s) ∧
    (feq0 s.par.bass = false → exec .bass2 s = .next { s with
      fm := { s.fm with c2 := { pin := s.acc, pout := boosted } }
      acc := fmul boosted (fadd 0x3F800000#32 (fmul s.par.bass 0x40000000#32)) })

/-- R93: HIGH applies its transform twice and advances `BT` after each. -/
def Obligations.HighStage : Prop :=
  ∀ s : State, s.par.inRange = true →
    let pass (x : Word) (bt : DWord) : Word := d2f (dadd (f2d x) (dmul (f2d x) bt))
    let bt₁ := dadd s.fm.bt s.fm.btinc
    (feq0 s.par.high = true → exec .high s = .next s) ∧
    (feq0 s.par.high = false → exec .high s = .next { s with
      acc := pass (pass s.acc s.fm.bt) bt₁
      fm := { s.fm with bt := dadd bt₁ s.fm.btinc } })

/-- R94: with `BT = BTINC = +0.0`, as in every reachable state, HIGH changes nothing when `ACC` is finite, and
turns an infinity or a NaN into the canonical NaN when it is not bypassed. -/
def Obligations.HighIsInert : Prop :=
  ∀ s : State, s.fm.bt = 0#64 → s.fm.btinc = 0#64 → feq0 s.par.high = false →
    (isFinite s.acc = true → exec .high s = .next s) ∧
    (isFinite s.acc = false → exec .high s = .next { s with acc := 0x7FC00000#32 })

/-- R95. -/
def Obligations.DriveStage : Prop :=
  ∀ s : State, s.par.inRange = true →
    exec .drive s = .next { s with
      acc :=
        if feq0 s.par.drive then s.acc
        else Config.platform.units.tanh32
          (fmul s.acc (fadd 0x3F800000#32 (fmul s.par.drive 0x40A00000#32))) }

/-- R96. -/
def Obligations.CompStage : Prop :=
  ∀ s : State, s.par.inRange = true →
    let e := fsub 0x3F800000#32 (fmul s.par.compress 0x3F4CCCCD#32)
    exec .comp s = .next { s with
      acc :=
        if feq0 s.par.compress then s.acc
        else if fgt0 s.acc then Config.platform.units.pow32 s.acc e
        else fneg (Config.platform.units.pow32 (fneg s.acc) e) }

/-- R96, corner case (g): for every declared non-zero value of the control and a finite non-zero input, the
compressed value is not a NaN, not a zero, and has the sign of the input. -/
def Obligations.CompressionKeepsSign : Prop :=
  ∀ (s : State) (v : Int), 1 ≤ v → v ≤ 100 → s.par.compress = fdiv (i2f v) 0x42C80000#32 →
    isFinite s.acc = true → feq0 s.acc = false →
    ∃ t, exec .comp s = .next t ∧ isNaN t.acc = false ∧ feq0 t.acc = false ∧ fsign t.acc = fsign s.acc

/-- R96, corner case (c): digital silence leaves the compression stage as −0.0. -/
def Obligations.CompressedSilenceIsNegativeZero : Prop :=
  ∀ (s : State) (v : Int), 1 ≤ v → v ≤ 100 → s.par.compress = fdiv (i2f v) 0x42C80000#32 →
    feq0 s.acc = true → exec .comp s = .next { s with acc := 0x80000000#32 }

/-- R97. -/
def Obligations.WshapeStage : Prop :=
  ∀ s : State, s.par.inRange = true →
    exec .wshape s = .next { s with
      acc :=
        if fgt0 s.par.waveshape then
          fadd s.acc (fmul (fmul s.par.waveshape (Config.platform.units.sin32 s.acc)) 0x40000000#32)
        else if flt0 s.par.waveshape then
          fadd s.acc (fmul (fneg s.par.waveshape) (lutiValue s.rom s.acc))
        else s.acc }

/-- R98: SAT has no bypass and reads no parameter. -/
def Obligations.SatStage : Prop :=
  ∀ s : State, exec .sat s = .next { s with acc := Config.platform.units.tanh32 s.acc }

/-- 44_sine_lut.md R104: LUTI over a ROM of 4096 words. That LUTI on its own works on `ACC` is the model's choice
(log entry 16). -/
def Obligations.LutiLooksUp : Prop :=
  ∀ s : State, s.rom.length = 4096 →
    let fr := fsub s.acc (ffloor s.acc)
    let pos := fmul fr 0x457FF000#32
    let i := (f2i pos).toNat
    let t := fsub pos (i2f i)
    (isFinite s.acc = false → exec .luti s = .next { s with acc := 0x7FC00000#32 }) ∧
    (isFinite s.acc = true → ∃ a b, s.rom[i]? = some a ∧ s.rom[(i + 1) % 4096]? = some b ∧
      exec .luti s = .next { s with acc := fadd (fmul (fsub 0x3F800000#32 t) a) (fmul t b) })

/-- R104, R105: for every finite operand the position lies in [0, 4095], the lower index is inside the ROM
and the weight in [0, 1); index 4095 is reached only at position 4095.0 exactly, with weight `+0.0`. -/
def Obligations.LutiIndicesStayInRom : Prop :=
  ∀ x : Word, isFinite x = true →
    let pos := fmul (fsub x (ffloor x)) 0x457FF000#32
    let t := fsub pos (i2f (f2i pos))
    fle 0x00000000#32 pos = true ∧ fle pos 0x457FF000#32 = true ∧
      0 ≤ f2i pos ∧ f2i pos ≤ 4095 ∧ fle 0x00000000#32 t = true ∧ flt t 0x3F800000#32 = true ∧
      (f2i pos = 4095 → pos = 0x457FF000#32 ∧ t = 0x00000000#32)

/-- R106 (a): operands a whole number of turns apart look up the same word, bit for bit. -/
def Obligations.LutiIsPeriodic : Prop :=
  ∀ (x y : Word) (k : Int) (rom : List Word), isFinite x = true → isFinite y = true →
    fvalue y = fvalue x + k → lutiValue rom y = lutiValue rom x

/-- Every stage operation answers a next state from every state, in range or not, and changes nothing but
`ACC` and the filter memory. That out-of-range registers are evaluated as the formulas are written is the
model's choice (log entry 10), which U1 allows. -/
def Obligations.StagesAlwaysComplete : Prop :=
  ∀ i ∈ [Instr.clip, .bass1, .bass2, .high, .drive, .comp, .wshape, .sat, .luti], ∀ s : State,
    ∃ t, exec i s = .next t ∧ t = { s with acc := t.acc, fm := t.fm } ∧
      (i ∈ [Instr.clip, .drive, .comp, .wshape, .sat, .luti] → t.fm = s.fm) ∧
      (i = .bass1 → t.fm = { s.fm with c1 := t.fm.c1 }) ∧
      (i = .bass2 → t.fm = { s.fm with c2 := t.fm.c2 }) ∧
      (i = .high → t.fm = { s.fm with bt := t.fm.bt })

/-- R99: whatever the input, the parameters in range and the filter memory, the value stored by a sample step is
a NaN or has magnitude at most 1. The premise is U1's: no bound is claimed where a register is out of range. -/
def Obligations.OutputBound : Prop :=
  ∀ s : State, s.par.inRange = true → ∃ t, runSlots slotOrder s = .next t ∧
    (isNaN t.acc = true ∨ (fle 0xBF800000#32 t.acc = true ∧ fle t.acc 0x3F800000#32 = true))

/-- R82: the eight stages read nothing but the parameter registers, the filter memory, the ROM and their
input: two states that agree on these get the same output and the same filter memory. -/
def Obligations.SampleDependsOnlyOnItsInputs : Prop :=
  ∀ s s' : State, s.par = s'.par → s.fm = s'.fm → s.rom = s'.rom → s.acc = s'.acc →
    ∃ t t', runSlots slotOrder s = .next t ∧ runSlots slotOrder s' = .next t' ∧
      t.acc = t'.acc ∧ t.fm = t'.fm

/-! ### Arithmetic -/

/-- 40_numerics.md R56, R61: below the overflow bound, a sum, difference, product or quotient of finite operands
is the binary32 value nearest the exact result, ties to even; from the bound on it is an infinity with the
sign of the exact result. -/
def Obligations.ArithmeticIsCorrectlyRounded : Prop :=
  ∀ a b : Word, isFinite a = true → isFinite b = true →
    let rounded (r : Word) (v : ℚ) : Prop :=
      (|v| < overflowBound → isNearestEven r v) ∧
      (overflowBound ≤ |v| → r = if v < 0 then 0xFF800000#32 else 0x7F800000#32)
    rounded (fadd a b) (fvalue a + fvalue b) ∧ rounded (fsub a b) (fvalue a - fvalue b) ∧
    rounded (fmul a b) (fvalue a * fvalue b) ∧
    (feq0 b = false → rounded (fdiv a b) (fvalue a / fvalue b))

/-- R56: the special cases: NaN operands, infinities, zeros and their signs. -/
def Obligations.ArithmeticSpecialCases : Prop :=
  ∀ a b : Word,
    let nan : Word := 0x7FC00000#32
    let zero (neg : Bool) : Word := if neg then 0x80000000#32 else 0x00000000#32
    let inf (neg : Bool) : Word := if neg then 0xFF800000#32 else 0x7F800000#32
    let neg := fsign a != fsign b
    (isNaN a = true ∨ isNaN b = true → fadd a b = nan ∧ fsub a b = nan ∧ fmul a b = nan ∧ fdiv a b = nan) ∧
    (isInf a = true → isInf b = true →
      fadd a b = (if neg then nan else a) ∧ fsub a b = (if neg then a else nan) ∧
        fmul a b = inf neg ∧ fdiv a b = nan) ∧
    (isInf a = true → isFinite b = true →
      fadd a b = a ∧ fadd b a = a ∧ fsub a b = a ∧ fsub b a = fneg a ∧ fdiv a b = inf neg ∧
        fdiv b a = zero neg ∧ fmul a b = (if feq0 b then nan else inf neg) ∧
        fmul b a = (if feq0 b then nan else inf neg)) ∧
    (isFinite a = true → isFinite b = true →
      (fvalue a + fvalue b = 0 → fadd a b = zero (fsign a && fsign b)) ∧
      (fvalue a - fvalue b = 0 → fsub a b = zero (fsign a && !fsign b)) ∧
      (feq0 (fmul a b) = true → fmul a b = zero neg) ∧
      (feq0 (fdiv a b) = true → fdiv a b = zero neg) ∧
      (feq0 b = true → fdiv a b = if feq0 a then nan else inf neg))

/-- R60: every arithmetic operation that returns a NaN returns the canonical one. -/
def Obligations.NaNResultsAreCanonical : Prop :=
  ∀ (a b : Word) (c d : DWord) (v : Int) (s : State),
    let canon (r : Word) : Prop := isNaN r = true → r = 0x7FC00000#32
    let canon64 (r : DWord) : Prop := nanPat binary64 r.toNat = true → r = 0x7FF8000000000000#64
    canon (fadd a b) ∧ canon (fsub a b) ∧ canon (fmul a b) ∧ canon (fdiv a b) ∧ canon (ffloor a) ∧
      canon (i2f v) ∧ canon (d2f c) ∧ canon64 (f2d a) ∧ canon64 (dadd c d) ∧ canon64 (dmul c d) ∧
      canon (Config.platform.units.tanh32 a) ∧ canon (Config.platform.units.sin32 a) ∧
      canon (Config.platform.units.pow32 a b) ∧ canon (lutiValue s.rom a)

/-- R65, R66: a 32-bit integer converts to the nearest binary32 value, ties to even, exactly up to 2^24, and
0 to `+0.0`; back, a value is truncated toward zero and saturated, infinities too, and a NaN gives 0. -/
def Obligations.IntegerConversions : Prop :=
  (∀ v : Int, -2147483648 ≤ v → v ≤ 2147483647 →
    isNearestEven (i2f v) v ∧ (|v| ≤ 2 ^ 24 → fvalue (i2f v) = v) ∧ (v = 0 → i2f v = 0x00000000#32)) ∧
  (∀ a : Word, isNaN a = true → f2i a = 0) ∧
  (∀ a : Word, isInf a = true → f2i a = if fsign a then -2147483648 else 2147483647) ∧
  (∀ a : Word, isFinite a = true →
    f2i a = max (-2147483648) (min 2147483647 (if 0 ≤ fvalue a then ⌊fvalue a⌋ else ⌈fvalue a⌉)))

/-- R62: the largest integral value not greater than the operand, exact; zeros, infinities and large values
unchanged, a NaN to the canonical one, and `−1.0` for an operand between `−1` and `−0`. -/
def Obligations.FloorIsGreatestIntegerBelow : Prop :=
  ∀ a : Word,
    (isNaN a = true → ffloor a = 0x7FC00000#32) ∧
    (isInf a = true → ffloor a = a) ∧
    (isFinite a = true →
      isFinite (ffloor a) = true ∧ fvalue (ffloor a) = ⌊fvalue a⌋ ∧ (feq0 a = true → ffloor a = a) ∧
        (2 ^ 23 ≤ |fvalue a| → ffloor a = a) ∧
        (-1 < fvalue a → fvalue a < 0 → ffloor a = 0xBF800000#32))

/-! ### State and whole-machine rules -/

/-- 10_state.md R26: the state after hardware reset, for the values the spec gives. -/
def Obligations.ResetState : Prop :=
  State.reset.par = ⟨0x00000000#32, 0x00000000#32, 0x3E4CCCCD#32, 0x00000000#32, 0x00000000#32,
      0x00000000#32, 0x00000000#32⟩ ∧
    State.reset.fm = ⟨⟨0x00000000#32, 0x00000000#32⟩, ⟨0x00000000#32, 0x00000000#32⟩,
      0x0000000000000000#64, 0x0000000000000000#64⟩ ∧
    State.reset.rom = Config.platform.sineRom ∧ (∀ k : Fin 16, State.reset.strbuf[k] = 0x00#8) ∧
    State.reset.seq.busy = false ∧ State.reset.portA.pend = none ∧ State.reset.portC.pend = none

/-- 70_reset_and_hazards.md R122, R126: hardware reset as an event, from any state: parameters to their
defaults, filter memory and STRBUF cleared, BUSY 0, both latches emptied without a response, the ROM and the
sample memory as they were. A step takes it when it is the only enabled action. That it can come at any moment is
the model's reading (log entry 14). -/
def Obligations.HardwareResetEvent : Prop :=
  ∀ s : State,
    let t := hardwareReset s
    t.par = ⟨0x00000000#32, 0x00000000#32, 0x3E4CCCCD#32, 0x00000000#32, 0x00000000#32, 0x00000000#32,
      0x00000000#32⟩ ∧
    t.fm = ⟨⟨0x00000000#32, 0x00000000#32⟩, ⟨0x00000000#32, 0x00000000#32⟩, 0x0000000000000000#64,
      0x0000000000000000#64⟩ ∧
    (∀ k : Fin 16, t.strbuf[k] = 0x00#8) ∧ t.seq.busy = false ∧ t.portA.pend = none ∧
    t.portC.pend = none ∧ t.portA.rsp = s.portA.rsp ∧ t.portC.rsp = s.portC.rsp ∧ t.rom = s.rom ∧
    t.mem = s.mem ∧
    (∀ es, s.platform = .hardwareReset :: es → s.seq.busy = false → s.portA.pend = none →
      s.portA.host = [] → s.portC.pend = none → s.portC.host = [] →
      step s = .next { t with platform := es })

/-- R27: the invariants hold after reset. -/
def Obligations.InvariantAtReset : Prop := MachineInv State.reset

/-- R27: every step from a state with the invariants gives a state with them: `SCLIP` is `CLIPPING² × 20`,
`BT = BTINC = +0.0`, parameters finite, BUSY backed by the PROCESS word in PENDA, the ROM its image, STRBUF a
zero-terminated ASCII string, and the memory canonical. -/
def Obligations.InvariantKeptByEveryStep : Prop :=
  ∀ s t, MachineInv s → step s = .next t → MachineInv t

/-- R14, R27 (I-6): a SETP inside the declared domain of its id keeps every parameter register in range, and
hardware reset puts them there. -/
def Obligations.RangesKeptByDeclaredValues : Prop :=
  Params.reset.inRange = true ∧
  ∀ (s t : State) (id : Nat) (v : Int), s.par.inRange = true →
    (if id = 3 then -100 ≤ v else 0 ≤ v) → v ≤ 100 → exec (.setp id v) s = .next t →
    t.par.inRange = true

/-- R122, R12: the parameter registers change only by hardware reset or by a SETP command on one of the
ports. -/
def Obligations.ParametersWrittenOnlyBySetp : Prop :=
  ∀ s t, step s = .next t → t.par ≠ s.par →
    (∃ es, s.platform = .hardwareReset :: es) ∨
    (∃ w, (s.portA.pend = some w ∨ s.portC.pend = some w) ∧ w.extractLsb' 120 8 = 0x10#8)

/-- R15, R16, R25, R111 (d): the filter memory changes only by hardware reset, by INIT or RESET on port A
while no PROCESS runs, or by a sample step: one of these was enabled. What a command of port C itself does is
`PortCCommandsLeaveAudioStateAlone`. -/
def Obligations.FilterMemoryWrittenOnlyFromPortA : Prop :=
  ∀ s t, step s = .next t → t.fm ≠ s.fm →
    (∃ es, s.platform = .hardwareReset :: es) ∨
    (s.seq.busy = false ∧ ∃ w, s.portA.pend = some w ∧
      (w.extractLsb' 120 8 = 0x01#8 ∨ w.extractLsb' 120 8 = 0x02#8)) ∨
    (s.seq.busy = true ∧ s.seq.fidx ≠ s.seq.fcnt)

/-- R28, R25: the sample memory changes only by the platform's own write or by a sample step. -/
def Obligations.MemoryWrittenOnlyBySampleSteps : Prop :=
  ∀ s t, step s = .next t → t.mem ≠ s.mem →
    (∃ a v es, s.platform = .store a v :: es) ∨ (s.seq.busy = true ∧ s.seq.fidx ≠ s.seq.fcnt)

/-- R18, R25: the string buffer changes only by hardware reset or by a GETSTR command. -/
def Obligations.StringBufferWrittenOnlyByGetstr : Prop :=
  ∀ s t, step s = .next t → t.strbuf ≠ s.strbuf →
    (∃ es, s.platform = .hardwareReset :: es) ∨
    (∃ w, (s.portA.pend = some w ∨ s.portC.pend = some w) ∧ w.extractLsb' 120 8 = 0x12#8)

/-- R17, R103 (R-const): no step writes the sine ROM. -/
def Obligations.RomIsConstant : Prop := ∀ s t, step s = .next t → t.rom = s.rom

/-- R22, R110: on each port a step issues at most one response, and exactly when it takes the waiting command
out of the latch; only hardware reset empties a latch without one. Responses are never lost or reordered. -/
def Obligations.OneResponsePerCommand : Prop :=
  ∀ s t, s.busyOk → step s = .next t → ∀ p : Port,
    ((t.port p).rsp = (s.port p).rsp ∧
      ((t.port p).pend = (s.port p).pend ∨ (s.port p).pend = none ∨
        ((t.port p).pend = none ∧ ∃ es, s.platform = .hardwareReset :: es))) ∨
    ((t.port p).pend = none ∧ ∃ w r, (s.port p).pend = some w ∧
      (t.port p).rsp = (s.port p).rsp ++ [r] ∧ r.extractLsb' 176 8 = w.extractLsb' 120 8)

/-- R111, R112: under the arbiter's weak fairness a command waiting on port C is answered, whatever port A
does, unless the platform interferes. The arbiter is the model's form of the open choice (log entry 6). -/
def Obligations.PortCIsEventuallyAnswered : Prop :=
  ∀ (s : State) (w : Command), s.portC.pend = some w → s.platform = [] →
    ∃ k t r, core.run k s = .next t ∧ t.portC.pend = none ∧ t.portC.rsp = s.portC.rsp ++ [r]

/-- The frame of every operation: none of them, as its own effect, touches the sample memory, the ROM, the
agents' queues or the arbiter's turn, and the commands leave `ACC` alone (10_state.md R25). That every operation
answers a next state rests, where a parameter register is out of range, on the model's choice to evaluate (log
entry 10, which U1 allows), and where an operand fits no field on its choice to be total (log entry 17). -/
def Obligations.OperationsLeaveTheRestAlone : Prop :=
  ∀ (i : Instr) (s : State), ∃ t, exec i s = .next t ∧
    (∀ a, readByte t.mem a = readByte s.mem a) ∧ t.rom = s.rom ∧ t.platform = s.platform ∧
    t.turn = s.turn ∧ t.serving = s.serving ∧ t.portA.host = s.portA.host ∧
    t.portC.host = s.portC.host ∧
    ((∃ w, encode i = .command w) → t.acc = s.acc) ∧
    ((∀ id v, i ≠ .setp id v) → t.par = s.par) ∧ ((∀ id v, i ≠ .getstr id v) → t.strbuf = s.strbuf) ∧
    ((∀ a b n, i ≠ .process a b n) → t.seq = s.seq)

/-- 30_encoding.md R46, R48, R49; 60_exceptions.md R111: a command served on port C, whatever its word and in
every state, while a PROCESS runs or not, answers a next state with the filter memory, the sample memory, the
sequencer, `ACC`, the ROM and port A as they were, its latch empty and one response appended; with a reserved opcode
nothing changes but that answer. Every step of port C is `serveCommand .C` (`EveryStepIsAnEnabledOne`). The record of
the port in `serving` is the model's choice (log entry 9). -/
def Obligations.PortCCommandsLeaveAudioStateAlone : Prop :=
  ∀ (s : State) (w : Command),
    (∃ t r, serveCommand .C w s = .next t ∧ t.fm = s.fm ∧ (∀ a, readByte t.mem a = readByte s.mem a) ∧
      t.seq = s.seq ∧ t.acc = s.acc ∧ t.rom = s.rom ∧ t.portA = s.portA ∧ t.portC.pend = none ∧
      t.portC.rsp = s.portC.rsp ++ [r] ∧ r.extractLsb' 176 8 = w.extractLsb' 120 8) ∧
    (w.extractLsb' 120 8 ∉ [0x01#8, 0x02#8, 0x03#8, 0x10#8, 0x11#8, 0x12#8, 0x13#8] →
      serveCommand .C w s =
        .next (answered { s with serving := .C } (responseWord 0x01 (w.extractLsb' 120 8) 0 0)))
end

