-- ==== Sys2Proof/Laws/Arith.lean ====
section
/-! SUPPORT. One lemma for each property of rounding the later proofs need: a representable number of
quanta rounds to itself, rounding is monotone, and it stays between representable bounds. -/

namespace Sys2Proof.Machine

/-! ### The nearest integer -/

theorem roundTiesToEven_scale (n d : Nat) {c : Nat} (hc : 0 < c) :
    roundTiesToEven (n * c) (d * c) = roundTiesToEven n d := by
  unfold roundTiesToEven
  rw [Nat.mul_div_mul_right _ _ hc, Nat.mul_mod_mul_right]
  have h1 : (2 * (n % d * c) < d * c) ↔ (2 * (n % d) < d) := by
    rw [← Nat.mul_assoc]; exact Nat.mul_lt_mul_right hc
  have h2 : (d * c < 2 * (n % d * c)) ↔ (d < 2 * (n % d)) := by
    rw [← Nat.mul_assoc]; exact Nat.mul_lt_mul_right hc
  simp only [h1, h2]

theorem roundTiesToEven_mul (n : Nat) {d : Nat} (hd : 0 < d) : roundTiesToEven (n * d) d = n := by
  simp [roundTiesToEven, Nat.mul_div_cancel _ hd, hd]

theorem roundTiesToEven_ge (n d : Nat) : n / d ≤ roundTiesToEven n d := by
  unfold roundTiesToEven; split <;> [skip; split] <;> omega

theorem roundTiesToEven_le (n d : Nat) : roundTiesToEven n d ≤ n / d + 1 := by
  unfold roundTiesToEven; split <;> [skip; split] <;> omega

theorem roundTiesToEven_mono_num {n n' : Nat} (d : Nat) (h : n ≤ n') :
    roundTiesToEven n d ≤ roundTiesToEven n' d := by
  rcases (Nat.div_le_div_right h : n / d ≤ n' / d).lt_or_eq with hq | hq
  · exact (roundTiesToEven_le n d).trans ((Nat.succ_le_of_lt hq).trans (roundTiesToEven_ge n' d))
  · have hr : n % d ≤ n' % d := by
      have h1 := Nat.div_add_mod n d
      have h2 := Nat.div_add_mod n' d
      rw [hq] at h1; omega
    unfold roundTiesToEven
    rw [hq]
    split <;> split <;> (try split) <;> (try split) <;> omega

theorem roundTiesToEven_mono {n d n' d' : Nat} (hd : 0 < d) (hd' : 0 < d') (h : n * d' ≤ n' * d) :
    roundTiesToEven n d ≤ roundTiesToEven n' d' := by
  rw [← roundTiesToEven_scale n d hd', ← roundTiesToEven_scale n' d' hd, Nat.mul_comm d' d]
  exact roundTiesToEven_mono_num _ h

/-! ### Quanta -/

/-- The quanta of a pattern in the binade `k` doublings above the quantum. -/
theorem quanta_binade (f : Fmt) {k m : Nat} (h : 2 ^ f.frac ≤ m ∨ k = 0) (hm : m ≤ 2 * 2 ^ f.frac) :
    quanta f (k * 2 ^ f.frac + m) = m * 2 ^ k := by
  have hF : 0 < 2 ^ f.frac := by positivity
  have e1 : (k * 2 ^ f.frac + m) / 2 ^ f.frac = k + m / 2 ^ f.frac := by
    rw [Nat.mul_comm, Nat.mul_add_div hF]
  have e2 : (k * 2 ^ f.frac + m) % 2 ^ f.frac = m % 2 ^ f.frac := by
    rw [Nat.mul_comm, Nat.mul_add_mod]
  unfold quanta
  rw [e1, e2]
  rcases Nat.lt_or_ge m (2 ^ f.frac) with h1 | h1
  · obtain rfl : k = 0 := by omega
    simp [Nat.div_eq_of_lt h1]
  · rcases Nat.lt_or_ge m (2 * 2 ^ f.frac) with h2 | h2
    · have hq : m / 2 ^ f.frac = 1 := Nat.div_eq_of_lt_le (by omega) (by omega)
      have hr : m % 2 ^ f.frac = m - 2 ^ f.frac := by
        have := Nat.div_add_mod m (2 ^ f.frac); rw [hq] at this; omega
      rw [hq, hr, if_neg (by omega), Nat.add_sub_cancel]
      congr 1; omega
    · obtain rfl : m = 2 * 2 ^ f.frac := by omega
      rw [Nat.mul_div_cancel _ hF, Nat.mul_mod_left, if_neg (by omega), Nat.add_zero]
      rw [show k + 2 - 1 = k + 1 by omega, pow_succ]
      ring

theorem lt_log2_bounds {q : Nat} (h : q ≠ 0) : 2 ^ q.log2 ≤ q ∧ q < 2 ^ (q.log2 + 1) :=
  ⟨Nat.log2_self_le h, Nat.lt_log2_self⟩

/-- The significand that rounding makes, and the bounds on it. -/
theorem roundTiesToEven_significand (f : Fmt) (num den : Nat) {k : Nat}
    (hk : k = Nat.log2 (num / den) - f.frac) :
    (2 ^ f.frac ≤ roundTiesToEven num (den * 2 ^ k) ∨ k = 0) ∧
      roundTiesToEven num (den * 2 ^ k) ≤ 2 * 2 ^ f.frac := by
  have hq : num / (den * 2 ^ k) = num / den / 2 ^ k := by rw [Nat.div_div_eq_div_mul]
  have hlt : num / den < 2 ^ (f.frac + 1 + k) := by
    refine Nat.lt_of_lt_of_le Nat.lt_log2_self (Nat.pow_le_pow_right (by decide) (by omega))
  have hub : num / (den * 2 ^ k) < 2 * 2 ^ f.frac := by
    rw [hq, Nat.div_lt_iff_lt_mul (by positivity)]
    calc num / den < 2 ^ (f.frac + 1 + k) := hlt
      _ = 2 * 2 ^ f.frac * 2 ^ k := by ring
  refine ⟨?_, (roundTiesToEven_le _ _).trans hub⟩
  by_cases hz : k = 0
  · exact .inr hz
  · left
    refine le_trans ?_ (roundTiesToEven_ge _ _)
    have h0 : num / den ≠ 0 := by rintro h; rw [h] at hk; simp at hk; omega
    rw [hq, Nat.le_div_iff_mul_le (by positivity), ← pow_add]
    exact (Nat.pow_le_pow_right (by decide) (by omega)).trans (lt_log2_bounds h0).1

/-- A magnitude pattern's own quanta round back to it. -/
theorem roundMag_exact (f : Fmt) {m d : Nat} (hd : 0 < d) (hm : m ≤ infMag f) :
    roundMag f (quanta f m * d) d = m := by
  have hF : 0 < 2 ^ f.frac := by positivity
  unfold roundMag
  rw [Nat.mul_div_cancel _ hd]
  set e := m / 2 ^ f.frac with he
  have hdm := Nat.div_add_mod m (2 ^ f.frac)
  have hr := Nat.mod_lt m hF
  by_cases h0 : e = 0
  · have hq : quanta f m = m := by unfold quanta; rw [← he, if_pos h0]
    have hlt : m < 2 ^ f.frac := by rw [← he, h0] at hdm; omega
    have hk : Nat.log2 m - f.frac = 0 := by
      rcases Nat.eq_zero_or_pos m with hz | hz
      · rw [hz]; simp
      · have := (lt_log2_bounds (by omega : m ≠ 0)).1
        have := (Nat.pow_lt_pow_iff_right (by decide : 1 < 2)).1 (this.trans_lt hlt)
        omega
    rw [hq, hk]; simp only [Nat.pow_zero, Nat.mul_one, Nat.zero_mul, Nat.zero_add]
    rw [roundTiesToEven_mul _ hd]; exact Nat.min_eq_right hm
  · have hq : quanta f m = (2 ^ f.frac + m % 2 ^ f.frac) * 2 ^ (e - 1) := by
      unfold quanta; rw [← he, if_neg h0]
    have hlog : Nat.log2 (quanta f m) - f.frac = e - 1 := by
      have hne : quanta f m ≠ 0 := by rw [hq]; positivity
      have h1 : 2 ^ (f.frac + (e - 1)) ≤ quanta f m := by
        rw [hq, pow_add]; exact Nat.mul_le_mul_right _ (by omega)
      have h2 : quanta f m < 2 ^ (f.frac + (e - 1) + 1) := by
        rw [hq]
        calc (2 ^ f.frac + m % 2 ^ f.frac) * 2 ^ (e - 1) < (2 * 2 ^ f.frac) * 2 ^ (e - 1) :=
              Nat.mul_lt_mul_of_pos_right (by omega) (by positivity)
          _ = 2 ^ (f.frac + (e - 1) + 1) := by ring
      have b := lt_log2_bounds hne
      have b1 := (Nat.pow_lt_pow_iff_right (by decide : 1 < 2)).1 (h1.trans_lt b.2)
      have b2 := (Nat.pow_lt_pow_iff_right (by decide : 1 < 2)).1 (b.1.trans_lt h2)
      omega
    simp only [hlog]
    rw [hq, Nat.mul_assoc, Nat.mul_comm (2 ^ (e - 1)) d, roundTiesToEven_mul _ (by positivity)]
    have : (e - 1) * 2 ^ f.frac + (2 ^ f.frac + m % 2 ^ f.frac) = m := by
      obtain ⟨j, hj⟩ : ∃ j, e = j + 1 := ⟨e - 1, (Nat.succ_pred_eq_of_ne_zero h0).symm⟩
      rw [← he, hj, Nat.mul_add, Nat.mul_one, Nat.mul_comm] at hdm
      rw [hj, Nat.add_sub_cancel]; omega
    rw [this]; exact Nat.min_eq_right hm

/-- Rounding is monotone in the number rounded. -/
theorem roundMag_mono (f : Fmt) {n d n' d' : Nat} (hd : 0 < d) (hd' : 0 < d') (h : n * d' ≤ n' * d) :
    roundMag f n d ≤ roundMag f n' d' := by
  unfold roundMag
  refine min_le_min_left _ ?_
  have hq : n / d ≤ n' / d' := by
    rw [Nat.le_div_iff_mul_le hd']
    refine Nat.le_of_mul_le_mul_right ?_ hd
    calc n / d * d' * d = n / d * d * d' := by ring
      _ ≤ n * d' := Nat.mul_le_mul_right _ (Nat.div_mul_le_self n d)
      _ ≤ n' * d := h
  have hk : Nat.log2 (n / d) ≤ Nat.log2 (n' / d') := by
    rcases Nat.eq_zero_or_pos (n / d) with hz | hz
    · rw [hz]; simp
    · exact (Nat.le_log2 (by omega)).2 ((lt_log2_bounds (by omega)).1.trans hq)
  obtain ⟨a1, a2⟩ := roundTiesToEven_significand f n d rfl
  obtain ⟨b1, b2⟩ := roundTiesToEven_significand f n' d' rfl
  generalize hkk : Nat.log2 (n / d) - f.frac = k at *
  generalize hkk' : Nat.log2 (n' / d') - f.frac = k' at *
  rcases (by omega : k = k' ∨ k < k') with rfl | hlt
  · refine Nat.add_le_add_left (roundTiesToEven_mono (by positivity) (by positivity) ?_) _
    calc n * (d' * 2 ^ k) = n * d' * 2 ^ k := by ring
      _ ≤ n' * d * 2 ^ k := Nat.mul_le_mul_right _ h
      _ = n' * (d * 2 ^ k) := by ring
  · have hb : 2 ^ f.frac ≤ roundTiesToEven n' (d' * 2 ^ k') := by omega
    have : (k + 1) * 2 ^ f.frac ≤ k' * 2 ^ f.frac := Nat.mul_le_mul_right _ hlt
    rw [Nat.add_mul] at this; omega

/-- Below a representable bound, the rounded magnitude stays at or below it. -/
theorem roundMag_le (f : Fmt) {n d m : Nat} (hd : 0 < d) (hm : m ≤ infMag f) (h : n ≤ quanta f m * d) :
    roundMag f n d ≤ m := by
  rw [← roundMag_exact f hd hm]
  exact roundMag_mono f hd hd (Nat.mul_le_mul_right _ h)

/-- Above a representable bound, the rounded magnitude stays at or above it. -/
theorem le_roundMag (f : Fmt) {n d m : Nat} (hd : 0 < d) (hm : m ≤ infMag f) (h : quanta f m * d ≤ n) :
    m ≤ roundMag f n d := by
  conv_lhs => rw [← roundMag_exact f hd hm]
  exact roundMag_mono f hd hd (Nat.mul_le_mul_right _ h)

theorem roundMag_le_infMag (f : Fmt) (n d : Nat) : roundMag f n d ≤ infMag f := Nat.min_le_left _ _

/-- Magnitude patterns and their quanta are in the same order. -/
theorem quanta_le_quanta (f : Fmt) {m m' : Nat} (h : m ≤ m') (hm : m' ≤ infMag f) :
    quanta f m ≤ quanta f m' := by
  by_contra hlt
  have h1 := roundMag_exact f (d := 1) (by decide) (h.trans hm)
  have h2 := roundMag_exact f (d := 1) (by decide) hm
  have h3 := roundMag_mono f (n := quanta f m' * 1) (d := 1) (n' := quanta f m * 1) (d' := 1)
    (by decide) (by decide) (by omega)
  rw [h1, h2] at h3
  obtain rfl : m = m' := by omega
  exact hlt le_rfl

end Sys2Proof.Machine
end

