-- ==== Sys2Proof/Laws/Decode.lean ====
section
/-! SUPPORT. The fields of a command word are the fields it was made from. -/

namespace Sys2Proof

section
variable (op id : Byte) (r : BitVec 16) (a b c : BitVec 32)

/-- A command word with any content in the field that is not decoded (30_encoding.md R43, R47). -/
def rawWord : Command := op ++ id ++ r ++ a ++ b ++ c

theorem opField_rawWord : opField (rawWord op id r a b c) = op := by
  apply BitVec.eq_of_getLsbD_eq; intro i hi
  simp only [opField, rawWord, BitVec.getLsbD_extractLsb', BitVec.getLsbD_append, hi, decide_true, Bool.true_and]
  have e : 120 + i - 32 - 32 - 32 - 16 - 8 = i := by omega
  rw [if_neg (by omega), if_neg (by omega), if_neg (by omega), if_neg (by omega), if_neg (by omega), e]

theorem idField_rawWord : idField (rawWord op id r a b c) = id := by
  apply BitVec.eq_of_getLsbD_eq; intro i hi
  simp only [idField, rawWord, BitVec.getLsbD_extractLsb', BitVec.getLsbD_append, hi, decide_true, Bool.true_and]
  have e : 112 + i - 32 - 32 - 32 - 16 = i := by omega
  rw [if_neg (by omega), if_neg (by omega), if_neg (by omega), if_neg (by omega), if_pos (by omega), e]

theorem aField_rawWord : aField (rawWord op id r a b c) = a := by
  apply BitVec.eq_of_getLsbD_eq; intro i hi
  simp only [aField, rawWord, BitVec.getLsbD_extractLsb', BitVec.getLsbD_append, hi, decide_true, Bool.true_and]
  have e : 64 + i - 32 - 32 = i := by omega
  rw [if_neg (by omega), if_neg (by omega), if_pos (by omega), e]

theorem bField_rawWord : bField (rawWord op id r a b c) = b := by
  apply BitVec.eq_of_getLsbD_eq; intro i hi
  simp only [bField, rawWord, BitVec.getLsbD_extractLsb', BitVec.getLsbD_append, hi, decide_true, Bool.true_and]
  have e : 32 + i - 32 = i := by omega
  rw [if_neg (by omega), if_pos (by omega), e]

theorem cField_rawWord : cField (rawWord op id r a b c) = c := by
  apply BitVec.eq_of_getLsbD_eq; intro i hi
  simp only [cField, rawWord, BitVec.getLsbD_extractLsb', BitVec.getLsbD_append, hi, decide_true, Bool.true_and]
  rw [if_pos (by omega)]; congr 1; omega

theorem commandWord_eq : commandWord op id a b c = rawWord op id 0 a b c := rfl

end

end Sys2Proof
end

