-- ==== Sys2Proof/Laws/State.lean ====
section
/-! SUPPORT. What each update of the state does to each field, so that no later proof unfolds a record
update. -/

namespace Sys2Proof.Machine

/-! ### setPar -/

@[simp] theorem State.setPar_par (s : State) (x : Params) : (s.setPar x).par = x := rfl
@[simp] theorem State.setPar_fm (s : State) (x : Params) : (s.setPar x).fm = s.fm := rfl
@[simp] theorem State.setPar_rom (s : State) (x : Params) : (s.setPar x).rom = s.rom := rfl
@[simp] theorem State.setPar_strbuf (s : State) (x : Params) : (s.setPar x).strbuf = s.strbuf := rfl
@[simp] theorem State.setPar_seq (s : State) (x : Params) : (s.setPar x).seq = s.seq := rfl
@[simp] theorem State.setPar_acc (s : State) (x : Params) : (s.setPar x).acc = s.acc := rfl
@[simp] theorem State.setPar_portA (s : State) (x : Params) : (s.setPar x).portA = s.portA := rfl
@[simp] theorem State.setPar_portC (s : State) (x : Params) : (s.setPar x).portC = s.portC := rfl
@[simp] theorem State.setPar_mem (s : State) (x : Params) : (s.setPar x).mem = s.mem := rfl
@[simp] theorem State.setPar_platform (s : State) (x : Params) : (s.setPar x).platform = s.platform := rfl
@[simp] theorem State.setPar_serving (s : State) (x : Params) : (s.setPar x).serving = s.serving := rfl
@[simp] theorem State.setPar_turn (s : State) (x : Params) : (s.setPar x).turn = s.turn := rfl
@[simp] theorem State.setPar_port (s : State) (x : Params) (p : Port) : (s.setPar x).port p = s.port p := by
  cases p <;> rfl

/-! ### setFm -/

@[simp] theorem State.setFm_par (s : State) (x : FilterMemory) : (s.setFm x).par = s.par := rfl
@[simp] theorem State.setFm_fm (s : State) (x : FilterMemory) : (s.setFm x).fm = x := rfl
@[simp] theorem State.setFm_rom (s : State) (x : FilterMemory) : (s.setFm x).rom = s.rom := rfl
@[simp] theorem State.setFm_strbuf (s : State) (x : FilterMemory) : (s.setFm x).strbuf = s.strbuf := rfl
@[simp] theorem State.setFm_seq (s : State) (x : FilterMemory) : (s.setFm x).seq = s.seq := rfl
@[simp] theorem State.setFm_acc (s : State) (x : FilterMemory) : (s.setFm x).acc = s.acc := rfl
@[simp] theorem State.setFm_portA (s : State) (x : FilterMemory) : (s.setFm x).portA = s.portA := rfl
@[simp] theorem State.setFm_portC (s : State) (x : FilterMemory) : (s.setFm x).portC = s.portC := rfl
@[simp] theorem State.setFm_mem (s : State) (x : FilterMemory) : (s.setFm x).mem = s.mem := rfl
@[simp] theorem State.setFm_platform (s : State) (x : FilterMemory) : (s.setFm x).platform = s.platform := rfl
@[simp] theorem State.setFm_serving (s : State) (x : FilterMemory) : (s.setFm x).serving = s.serving := rfl
@[simp] theorem State.setFm_turn (s : State) (x : FilterMemory) : (s.setFm x).turn = s.turn := rfl
@[simp] theorem State.setFm_port (s : State) (x : FilterMemory) (p : Port) : (s.setFm x).port p = s.port p := by
  cases p <;> rfl

/-! ### setStrbuf -/

@[simp] theorem State.setStrbuf_par (s : State) (x : Vector Byte 16) : (s.setStrbuf x).par = s.par := rfl
@[simp] theorem State.setStrbuf_fm (s : State) (x : Vector Byte 16) : (s.setStrbuf x).fm = s.fm := rfl
@[simp] theorem State.setStrbuf_rom (s : State) (x : Vector Byte 16) : (s.setStrbuf x).rom = s.rom := rfl
@[simp] theorem State.setStrbuf_strbuf (s : State) (x : Vector Byte 16) : (s.setStrbuf x).strbuf = x := rfl
@[simp] theorem State.setStrbuf_seq (s : State) (x : Vector Byte 16) : (s.setStrbuf x).seq = s.seq := rfl
@[simp] theorem State.setStrbuf_acc (s : State) (x : Vector Byte 16) : (s.setStrbuf x).acc = s.acc := rfl
@[simp] theorem State.setStrbuf_portA (s : State) (x : Vector Byte 16) : (s.setStrbuf x).portA = s.portA := rfl
@[simp] theorem State.setStrbuf_portC (s : State) (x : Vector Byte 16) : (s.setStrbuf x).portC = s.portC := rfl
@[simp] theorem State.setStrbuf_mem (s : State) (x : Vector Byte 16) : (s.setStrbuf x).mem = s.mem := rfl
@[simp] theorem State.setStrbuf_platform (s : State) (x : Vector Byte 16) : (s.setStrbuf x).platform = s.platform := rfl
@[simp] theorem State.setStrbuf_serving (s : State) (x : Vector Byte 16) : (s.setStrbuf x).serving = s.serving := rfl
@[simp] theorem State.setStrbuf_turn (s : State) (x : Vector Byte 16) : (s.setStrbuf x).turn = s.turn := rfl
@[simp] theorem State.setStrbuf_port (s : State) (x : Vector Byte 16) (p : Port) : (s.setStrbuf x).port p = s.port p := by
  cases p <;> rfl

/-! ### setSeq -/

@[simp] theorem State.setSeq_par (s : State) (x : Sequencer) : (s.setSeq x).par = s.par := rfl
@[simp] theorem State.setSeq_fm (s : State) (x : Sequencer) : (s.setSeq x).fm = s.fm := rfl
@[simp] theorem State.setSeq_rom (s : State) (x : Sequencer) : (s.setSeq x).rom = s.rom := rfl
@[simp] theorem State.setSeq_strbuf (s : State) (x : Sequencer) : (s.setSeq x).strbuf = s.strbuf := rfl
@[simp] theorem State.setSeq_seq (s : State) (x : Sequencer) : (s.setSeq x).seq = x := rfl
@[simp] theorem State.setSeq_acc (s : State) (x : Sequencer) : (s.setSeq x).acc = s.acc := rfl
@[simp] theorem State.setSeq_portA (s : State) (x : Sequencer) : (s.setSeq x).portA = s.portA := rfl
@[simp] theorem State.setSeq_portC (s : State) (x : Sequencer) : (s.setSeq x).portC = s.portC := rfl
@[simp] theorem State.setSeq_mem (s : State) (x : Sequencer) : (s.setSeq x).mem = s.mem := rfl
@[simp] theorem State.setSeq_platform (s : State) (x : Sequencer) : (s.setSeq x).platform = s.platform := rfl
@[simp] theorem State.setSeq_serving (s : State) (x : Sequencer) : (s.setSeq x).serving = s.serving := rfl
@[simp] theorem State.setSeq_turn (s : State) (x : Sequencer) : (s.setSeq x).turn = s.turn := rfl
@[simp] theorem State.setSeq_port (s : State) (x : Sequencer) (p : Port) : (s.setSeq x).port p = s.port p := by
  cases p <;> rfl

/-! ### setAcc -/

@[simp] theorem State.setAcc_par (s : State) (x : Word) : (s.setAcc x).par = s.par := rfl
@[simp] theorem State.setAcc_fm (s : State) (x : Word) : (s.setAcc x).fm = s.fm := rfl
@[simp] theorem State.setAcc_rom (s : State) (x : Word) : (s.setAcc x).rom = s.rom := rfl
@[simp] theorem State.setAcc_strbuf (s : State) (x : Word) : (s.setAcc x).strbuf = s.strbuf := rfl
@[simp] theorem State.setAcc_seq (s : State) (x : Word) : (s.setAcc x).seq = s.seq := rfl
@[simp] theorem State.setAcc_acc (s : State) (x : Word) : (s.setAcc x).acc = x := rfl
@[simp] theorem State.setAcc_portA (s : State) (x : Word) : (s.setAcc x).portA = s.portA := rfl
@[simp] theorem State.setAcc_portC (s : State) (x : Word) : (s.setAcc x).portC = s.portC := rfl
@[simp] theorem State.setAcc_mem (s : State) (x : Word) : (s.setAcc x).mem = s.mem := rfl
@[simp] theorem State.setAcc_platform (s : State) (x : Word) : (s.setAcc x).platform = s.platform := rfl
@[simp] theorem State.setAcc_serving (s : State) (x : Word) : (s.setAcc x).serving = s.serving := rfl
@[simp] theorem State.setAcc_turn (s : State) (x : Word) : (s.setAcc x).turn = s.turn := rfl
@[simp] theorem State.setAcc_port (s : State) (x : Word) (p : Port) : (s.setAcc x).port p = s.port p := by
  cases p <;> rfl

/-! ### setMem -/

@[simp] theorem State.setMem_par (s : State) (x : Memory) : (s.setMem x).par = s.par := rfl
@[simp] theorem State.setMem_fm (s : State) (x : Memory) : (s.setMem x).fm = s.fm := rfl
@[simp] theorem State.setMem_rom (s : State) (x : Memory) : (s.setMem x).rom = s.rom := rfl
@[simp] theorem State.setMem_strbuf (s : State) (x : Memory) : (s.setMem x).strbuf = s.strbuf := rfl
@[simp] theorem State.setMem_seq (s : State) (x : Memory) : (s.setMem x).seq = s.seq := rfl
@[simp] theorem State.setMem_acc (s : State) (x : Memory) : (s.setMem x).acc = s.acc := rfl
@[simp] theorem State.setMem_portA (s : State) (x : Memory) : (s.setMem x).portA = s.portA := rfl
@[simp] theorem State.setMem_portC (s : State) (x : Memory) : (s.setMem x).portC = s.portC := rfl
@[simp] theorem State.setMem_mem (s : State) (x : Memory) : (s.setMem x).mem = x := rfl
@[simp] theorem State.setMem_platform (s : State) (x : Memory) : (s.setMem x).platform = s.platform := rfl
@[simp] theorem State.setMem_serving (s : State) (x : Memory) : (s.setMem x).serving = s.serving := rfl
@[simp] theorem State.setMem_turn (s : State) (x : Memory) : (s.setMem x).turn = s.turn := rfl
@[simp] theorem State.setMem_port (s : State) (x : Memory) (p : Port) : (s.setMem x).port p = s.port p := by
  cases p <;> rfl

/-! ### setPlatform -/

@[simp] theorem State.setPlatform_par (s : State) (x : List PlatformEvent) : (s.setPlatform x).par = s.par := rfl
@[simp] theorem State.setPlatform_fm (s : State) (x : List PlatformEvent) : (s.setPlatform x).fm = s.fm := rfl
@[simp] theorem State.setPlatform_rom (s : State) (x : List PlatformEvent) : (s.setPlatform x).rom = s.rom := rfl
@[simp] theorem State.setPlatform_strbuf (s : State) (x : List PlatformEvent) : (s.setPlatform x).strbuf = s.strbuf := rfl
@[simp] theorem State.setPlatform_seq (s : State) (x : List PlatformEvent) : (s.setPlatform x).seq = s.seq := rfl
@[simp] theorem State.setPlatform_acc (s : State) (x : List PlatformEvent) : (s.setPlatform x).acc = s.acc := rfl
@[simp] theorem State.setPlatform_portA (s : State) (x : List PlatformEvent) : (s.setPlatform x).portA = s.portA := rfl
@[simp] theorem State.setPlatform_portC (s : State) (x : List PlatformEvent) : (s.setPlatform x).portC = s.portC := rfl
@[simp] theorem State.setPlatform_mem (s : State) (x : List PlatformEvent) : (s.setPlatform x).mem = s.mem := rfl
@[simp] theorem State.setPlatform_platform (s : State) (x : List PlatformEvent) : (s.setPlatform x).platform = x := rfl
@[simp] theorem State.setPlatform_serving (s : State) (x : List PlatformEvent) : (s.setPlatform x).serving = s.serving := rfl
@[simp] theorem State.setPlatform_turn (s : State) (x : List PlatformEvent) : (s.setPlatform x).turn = s.turn := rfl
@[simp] theorem State.setPlatform_port (s : State) (x : List PlatformEvent) (p : Port) : (s.setPlatform x).port p = s.port p := by
  cases p <;> rfl

/-! ### setServing -/

@[simp] theorem State.setServing_par (s : State) (x : Port) : (s.setServing x).par = s.par := rfl
@[simp] theorem State.setServing_fm (s : State) (x : Port) : (s.setServing x).fm = s.fm := rfl
@[simp] theorem State.setServing_rom (s : State) (x : Port) : (s.setServing x).rom = s.rom := rfl
@[simp] theorem State.setServing_strbuf (s : State) (x : Port) : (s.setServing x).strbuf = s.strbuf := rfl
@[simp] theorem State.setServing_seq (s : State) (x : Port) : (s.setServing x).seq = s.seq := rfl
@[simp] theorem State.setServing_acc (s : State) (x : Port) : (s.setServing x).acc = s.acc := rfl
@[simp] theorem State.setServing_portA (s : State) (x : Port) : (s.setServing x).portA = s.portA := rfl
@[simp] theorem State.setServing_portC (s : State) (x : Port) : (s.setServing x).portC = s.portC := rfl
@[simp] theorem State.setServing_mem (s : State) (x : Port) : (s.setServing x).mem = s.mem := rfl
@[simp] theorem State.setServing_platform (s : State) (x : Port) : (s.setServing x).platform = s.platform := rfl
@[simp] theorem State.setServing_serving (s : State) (x : Port) : (s.setServing x).serving = x := rfl
@[simp] theorem State.setServing_turn (s : State) (x : Port) : (s.setServing x).turn = s.turn := rfl
@[simp] theorem State.setServing_port (s : State) (x : Port) (p : Port) : (s.setServing x).port p = s.port p := by
  cases p <;> rfl

/-! ### setTurn -/

@[simp] theorem State.setTurn_par (s : State) (x : Nat) : (s.setTurn x).par = s.par := rfl
@[simp] theorem State.setTurn_fm (s : State) (x : Nat) : (s.setTurn x).fm = s.fm := rfl
@[simp] theorem State.setTurn_rom (s : State) (x : Nat) : (s.setTurn x).rom = s.rom := rfl
@[simp] theorem State.setTurn_strbuf (s : State) (x : Nat) : (s.setTurn x).strbuf = s.strbuf := rfl
@[simp] theorem State.setTurn_seq (s : State) (x : Nat) : (s.setTurn x).seq = s.seq := rfl
@[simp] theorem State.setTurn_acc (s : State) (x : Nat) : (s.setTurn x).acc = s.acc := rfl
@[simp] theorem State.setTurn_portA (s : State) (x : Nat) : (s.setTurn x).portA = s.portA := rfl
@[simp] theorem State.setTurn_portC (s : State) (x : Nat) : (s.setTurn x).portC = s.portC := rfl
@[simp] theorem State.setTurn_mem (s : State) (x : Nat) : (s.setTurn x).mem = s.mem := rfl
@[simp] theorem State.setTurn_platform (s : State) (x : Nat) : (s.setTurn x).platform = s.platform := rfl
@[simp] theorem State.setTurn_serving (s : State) (x : Nat) : (s.setTurn x).serving = s.serving := rfl
@[simp] theorem State.setTurn_turn (s : State) (x : Nat) : (s.setTurn x).turn = x := rfl
@[simp] theorem State.setTurn_port (s : State) (x : Nat) (p : Port) : (s.setTurn x).port p = s.port p := by
  cases p <;> rfl

/-! ### setPort -/

@[simp] theorem State.setPortA_par (s : State) (q : PortState) : (s.setPort .A q).par = s.par := rfl
@[simp] theorem State.setPortA_fm (s : State) (q : PortState) : (s.setPort .A q).fm = s.fm := rfl
@[simp] theorem State.setPortA_rom (s : State) (q : PortState) : (s.setPort .A q).rom = s.rom := rfl
@[simp] theorem State.setPortA_strbuf (s : State) (q : PortState) : (s.setPort .A q).strbuf = s.strbuf := rfl
@[simp] theorem State.setPortA_seq (s : State) (q : PortState) : (s.setPort .A q).seq = s.seq := rfl
@[simp] theorem State.setPortA_acc (s : State) (q : PortState) : (s.setPort .A q).acc = s.acc := rfl
@[simp] theorem State.setPortA_portA (s : State) (q : PortState) : (s.setPort .A q).portA = q := rfl
@[simp] theorem State.setPortA_portC (s : State) (q : PortState) : (s.setPort .A q).portC = s.portC := rfl
@[simp] theorem State.setPortA_mem (s : State) (q : PortState) : (s.setPort .A q).mem = s.mem := rfl
@[simp] theorem State.setPortA_platform (s : State) (q : PortState) : (s.setPort .A q).platform = s.platform := rfl
@[simp] theorem State.setPortA_serving (s : State) (q : PortState) : (s.setPort .A q).serving = s.serving := rfl
@[simp] theorem State.setPortA_turn (s : State) (q : PortState) : (s.setPort .A q).turn = s.turn := rfl
@[simp] theorem State.setPortC_par (s : State) (q : PortState) : (s.setPort .C q).par = s.par := rfl
@[simp] theorem State.setPortC_fm (s : State) (q : PortState) : (s.setPort .C q).fm = s.fm := rfl
@[simp] theorem State.setPortC_rom (s : State) (q : PortState) : (s.setPort .C q).rom = s.rom := rfl
@[simp] theorem State.setPortC_strbuf (s : State) (q : PortState) : (s.setPort .C q).strbuf = s.strbuf := rfl
@[simp] theorem State.setPortC_seq (s : State) (q : PortState) : (s.setPort .C q).seq = s.seq := rfl
@[simp] theorem State.setPortC_acc (s : State) (q : PortState) : (s.setPort .C q).acc = s.acc := rfl
@[simp] theorem State.setPortC_portA (s : State) (q : PortState) : (s.setPort .C q).portA = s.portA := rfl
@[simp] theorem State.setPortC_portC (s : State) (q : PortState) : (s.setPort .C q).portC = q := rfl
@[simp] theorem State.setPortC_mem (s : State) (q : PortState) : (s.setPort .C q).mem = s.mem := rfl
@[simp] theorem State.setPortC_platform (s : State) (q : PortState) : (s.setPort .C q).platform = s.platform := rfl
@[simp] theorem State.setPortC_serving (s : State) (q : PortState) : (s.setPort .C q).serving = s.serving := rfl
@[simp] theorem State.setPortC_turn (s : State) (q : PortState) : (s.setPort .C q).turn = s.turn := rfl
@[simp] theorem State.setPort_par (s : State) (p : Port) (q : PortState) : (s.setPort p q).par = s.par := by
  cases p <;> rfl
@[simp] theorem State.setPort_fm (s : State) (p : Port) (q : PortState) : (s.setPort p q).fm = s.fm := by
  cases p <;> rfl
@[simp] theorem State.setPort_rom (s : State) (p : Port) (q : PortState) : (s.setPort p q).rom = s.rom := by
  cases p <;> rfl
@[simp] theorem State.setPort_strbuf (s : State) (p : Port) (q : PortState) : (s.setPort p q).strbuf = s.strbuf := by
  cases p <;> rfl
@[simp] theorem State.setPort_seq (s : State) (p : Port) (q : PortState) : (s.setPort p q).seq = s.seq := by
  cases p <;> rfl
@[simp] theorem State.setPort_acc (s : State) (p : Port) (q : PortState) : (s.setPort p q).acc = s.acc := by
  cases p <;> rfl
@[simp] theorem State.setPort_mem (s : State) (p : Port) (q : PortState) : (s.setPort p q).mem = s.mem := by
  cases p <;> rfl
@[simp] theorem State.setPort_platform (s : State) (p : Port) (q : PortState) : (s.setPort p q).platform = s.platform := by
  cases p <;> rfl
@[simp] theorem State.setPort_serving (s : State) (p : Port) (q : PortState) : (s.setPort p q).serving = s.serving := by
  cases p <;> rfl
@[simp] theorem State.setPort_turn (s : State) (p : Port) (q : PortState) : (s.setPort p q).turn = s.turn := by
  cases p <;> rfl

@[simp] theorem State.port_A (s : State) : s.port .A = s.portA := rfl
@[simp] theorem State.port_C (s : State) : s.port .C = s.portC := rfl

@[simp] theorem State.setPort_port (s : State) (p : Port) (q : PortState) : (s.setPort p q).port p = q := by
  cases p <;> rfl

theorem State.setPort_port_ne (s : State) {p p' : Port} (q : PortState) (h : p ≠ p') :
    (s.setPort p q).port p' = s.port p' := by
  cases p <;> cases p' <;> first | rfl | exact absurd rfl h

end Sys2Proof.Machine
end

