-- ==== Sys2Proof/Laws/Step.lean ====
section
/-! SUPPORT. What a response does, and what one step can do, said once. -/

namespace Sys2Proof.Machine

open Sys2Proof.Config (Action)

/-! ### Responses -/

/-- Answering a command is `answered` with the response word, whatever the status. -/
theorem respond_eq (status op : Byte) (value : BitVec 32) (str : BitVec 128) (s : State) :
    respond status op value str s = answered s (responseWord status op value str) := by
  rcases s with ⟨par, fm, rom, strbuf, seq, acc, pA, pC, mem, pf, sv, tn⟩
  cases sv <;> rfl

@[simp] theorem answered_par (s : State) (w : ResponseWord) : (answered s w).par = s.par := by
  unfold answered; split <;> rfl
@[simp] theorem answered_fm (s : State) (w : ResponseWord) : (answered s w).fm = s.fm := by
  unfold answered; split <;> rfl
@[simp] theorem answered_rom (s : State) (w : ResponseWord) : (answered s w).rom = s.rom := by
  unfold answered; split <;> rfl
@[simp] theorem answered_strbuf (s : State) (w : ResponseWord) : (answered s w).strbuf = s.strbuf := by
  unfold answered; split <;> rfl
@[simp] theorem answered_seq (s : State) (w : ResponseWord) : (answered s w).seq = s.seq := by
  unfold answered; split <;> rfl
@[simp] theorem answered_acc (s : State) (w : ResponseWord) : (answered s w).acc = s.acc := by
  unfold answered; split <;> rfl
@[simp] theorem answered_mem (s : State) (w : ResponseWord) : (answered s w).mem = s.mem := by
  unfold answered; split <;> rfl
@[simp] theorem answered_platform (s : State) (w : ResponseWord) :
    (answered s w).platform = s.platform := by
  unfold answered; split <;> rfl
@[simp] theorem answered_serving (s : State) (w : ResponseWord) : (answered s w).serving = s.serving := by
  unfold answered; split <;> rfl
@[simp] theorem answered_turn (s : State) (w : ResponseWord) : (answered s w).turn = s.turn := by
  unfold answered; split <;> rfl

/-! ### The choice between enabled actions -/

theorem mem_enabledActions (s : State) (a : Action) : a ∈ enabledActions s ↔ enabled s a = true := by
  simp only [enabledActions, List.mem_filter, and_iff_right_iff_imp]
  intro; cases a <;> simp

/-- A choice is an enabled action; the state it leaves differs at most in `turn`, and only when the choice
was contested. -/
theorem chooseAction_some {s s' : State} {a : Action} (h : chooseAction s = some (a, s')) :
    enabled s a = true ∧ (s' = s ∨ s' = s.setTurn (s.turn + 1)) := by
  unfold chooseAction at h
  split at h
  · cases h
  · next b hb =>
    cases h
    exact ⟨(mem_enabledActions _ _).1 (by rw [hb]; simp), .inl rfl⟩
  · next b c bs hb =>
    cases h
    refine ⟨(mem_enabledActions _ _).1 ?_, .inr rfl⟩
    rw [hb]; split
    · next hm => exact hm
    · simp

theorem chooseAction_none {s : State} (h : chooseAction s = none) (a : Action) : enabled s a = false := by
  unfold chooseAction at h
  split at h
  · next hb =>
    rw [← Bool.not_eq_true, ← mem_enabledActions, hb]; simp
  · cases h
  · cases h

/-- One step: nothing is enabled and nothing happens, or an enabled action is taken. -/
theorem step_cases (s : State) :
    ((∀ a, enabled s a = false) ∧ step s = .next s) ∨
      ∃ a s', enabled s a = true ∧ (s' = s ∨ s' = s.setTurn (s.turn + 1)) ∧ step s = takeAction a s' := by
  unfold step nextStep
  cases h : chooseAction s with
  | none => exact .inl ⟨chooseAction_none h, rfl⟩
  | some p =>
    obtain ⟨h1, h2⟩ := chooseAction_some (a := p.1) (s' := p.2) h
    exact .inr ⟨p.1, p.2, h1, h2, rfl⟩

/-- With only one action enabled, the step takes it and `turn` stays. -/
theorem step_single {s : State} {a : Action} (h : enabledActions s = [a]) : step s = takeAction a s := by
  unfold step nextStep chooseAction; rw [h]

/-- With only port A able to act and something to do there, the step is port A's. -/
theorem step_onlyA {s : State} (h : onlyAEnabled s) (hb : s.seq.busy = true ∨ s.portA.pend ≠ none)
    (hp : s.portA.pend ≠ none ∨ s.portA.host = []) : step s = serveA s := by
  obtain ⟨h1, h2, h3⟩ := h
  have hA : (s.seq.busy || s.portA.pend.isSome) = true := by
    rcases hb with hb | hb
    · simp [hb]
    · simp [Option.isSome_iff_ne_none.2 hb]
  have hN : (s.portA.pend.isNone && !s.portA.host.isEmpty) = false := by
    rcases hp with hp | hp
    · cases hc : s.portA.pend <;> simp_all
    · simp [hp]
  refine step_single (a := .serveA) ?_
  simp [enabledActions, enabled, h1, h2, h3, hA, hN]

/-- With only port C able to act and a command waiting there, the step is port C's. -/
theorem step_onlyC {s : State} (h : onlyCEnabled s) (hp : s.portC.pend ≠ none) : step s = serveC s := by
  obtain ⟨h1, h2, h3, h4⟩ := h
  refine step_single (a := .serveC) ?_
  have hC := Option.isSome_iff_ne_none.2 hp
  have hN : s.portC.pend.isNone = false := by cases hc : s.portC.pend <;> simp_all
  simp [enabledActions, enabled, h1, h2, h3, h4, hC, hN]

end Sys2Proof.Machine
end

