-- ==== Sys2Proof/Laws/Exec.lean ====
section
/-! SUPPORT. What the meanings can do, said once: the commands, the stage operations and the sample step. -/

namespace Sys2Proof.Machine

open Sys2Proof.Config

/-! ### Stage operations -/

/-- The stages change `ACC` and the filter memory only. -/
theorem processSample_frame (u : ElemUnits) (s : State) :
    processSample u s = { s with acc := (processSample u s).acc, fm := (processSample u s).fm } := by
  have h1 (s : State) : bass1Stage s = { s with acc := (bass1Stage s).acc, fm := (bass1Stage s).fm } := by
    unfold bass1Stage; split <;> rfl
  have h2 (s : State) : bass2Stage s = { s with acc := (bass2Stage s).acc, fm := (bass2Stage s).fm } := by
    unfold bass2Stage; split <;> rfl
  have h3 (s : State) : highStage s = { s with acc := (highStage s).acc, fm := (highStage s).fm } := by
    unfold highStage; split <;> rfl
  simp only [processSample, satStage, wshapeStage, compStage, driveStage, State.setAcc]
  rw [h3, h2, h1]
  rfl

/-- The eight slots in their order are `ProcessSample` (43_sample_pipeline.md R88). -/
theorem runSlots_slotOrder (s : State) : runSlots slotOrder s = .next (processSample Config.units s) := rfl

/-- The stages keep `BTINC`, and keep `BT` when `BT` and `BTINC` are `+0.0` (10_state.md R16). -/
theorem processSample_boost (u : ElemUnits) (s : State) (h : s.fm.bt = posZero64 ∧ s.fm.btinc = posZero64) :
    (processSample u s).fm.bt = posZero64 ∧ (processSample u s).fm.btinc = posZero64 := by
  have h0 : dadd posZero64 posZero64 = posZero64 := by decide
  have h1 (s : State) : (bass1Stage s).fm.bt = s.fm.bt ∧ (bass1Stage s).fm.btinc = s.fm.btinc := by
    unfold bass1Stage; split <;> exact ⟨rfl, rfl⟩
  have h2 (s : State) : (bass2Stage s).fm.bt = s.fm.bt ∧ (bass2Stage s).fm.btinc = s.fm.btinc := by
    unfold bass2Stage; split <;> exact ⟨rfl, rfl⟩
  have h3 (s : State) (h : s.fm.bt = posZero64 ∧ s.fm.btinc = posZero64) :
      (highStage s).fm.bt = posZero64 ∧ (highStage s).fm.btinc = posZero64 := by
    unfold highStage
    split
    · exact h
    · simp [highPassStage, h.1, h.2, h0]
  exact h3 _ (by rw [(h2 _).1, (h2 _).2, (h1 _).1, (h1 _).2]; exact h)

/-- A sample step always completes; it changes `ACC`, the filter memory, one cell of the sample memory and
the sequencer's `FIDX` and `CH` (42_audio_commands.md R84). -/
theorem sampleStep_eq (s : State) :
    sampleStep s =
      .next { s with
        acc := (processSample Config.units (loadSample s)).acc
        fm := (processSample Config.units (loadSample s)).fm
        mem := memWrite s.mem (addrOut s.seq) (processSample Config.units (loadSample s)).acc
        seq := s.seq.advance } := by
  unfold sampleStep
  rw [runSlots_slotOrder]
  simp only [storeSample]
  rw [processSample_frame]
  rfl

/-! ### Commands -/

/-- What serving a command word on a port can do: answer it having changed the parameter registers (SETP),
the string buffer (GETSTR), the filter memory (INIT and RESET on port A) or nothing, or start a PROCESS on
port A. -/
theorem serveCommand_cases (p : Port) (w : Command) (s : State) :
    (∃ status value str, serveCommand p w s =
        .next (answered { s with serving := p } (responseWord status (opField w) value str))) ∨
    (opField w = opSetp ∧ ∃ id v, decodeCommand w = .ok (.setp id v) ∧ serveCommand p w s =
        .next (answered { s with serving := p, par := s.par.write id v }
          (responseWord statusOk (opField w) 0 0))) ∨
    (opField w = opGetstr ∧ ∃ id v, decodeCommand w = .ok (.getstr id v) ∧ serveCommand p w s =
        .next (answered { s with serving := p, strbuf := fillString (percentString v) }
          (responseWord statusOk (opField w) (BitVec.ofNat 32 (percentString v).length)
            (strField (fillString (percentString v)))))) ∨
    (p = .A ∧ (opField w = opInit ∨ opField w = opReset) ∧ serveCommand p w s =
        .next (answered { s with serving := p, fm := FilterMemory.clear }
          (responseWord statusOk (opField w) 0 0))) ∨
    (p = .A ∧ ∃ src dst n, decodeCommand w = .ok (.process src dst n) ∧ serveCommand p w s =
        .next (startProcess src dst n { s with serving := p })) := by
  unfold serveCommand decode
  simp only [decodeCommand]
  split_ifs with h1 h2 h3 h4 h5 h6 h7
  · cases p
    · exact .inr <| .inr <| .inr <| .inl ⟨rfl, .inl h1, by simp [exec, execInit, audioClass,
        State.setServing, respondOk, respond_eq, clearFM, State.setFm, h1]⟩
    · exact .inl ⟨statusNotPermitted, 0, 0, by simp [exec, execInit, audioClass, State.setServing, turnAway,
        respond_eq, h1]⟩
  · cases p
    · exact .inr <| .inr <| .inr <| .inl ⟨rfl, .inr h2, by simp [exec, execReset, audioClass,
        State.setServing, respondOk, respond_eq, clearFM, State.setFm, h2]⟩
    · exact .inl ⟨statusNotPermitted, 0, 0, by simp [exec, execReset, audioClass, State.setServing, turnAway,
        respond_eq, h2]⟩
  · cases p
    · exact .inr <| .inr <| .inr <| .inr ⟨rfl, _, _, _, rfl, rfl⟩
    · exact .inl ⟨statusNotPermitted, 0, 0, by simp [exec, execProcess, audioClass, State.setServing,
        turnAway, respond_eq, h3]⟩
  · exact .inr <| .inl ⟨h4, _, _, rfl, by simp [exec, execSetp, State.setServing, respondOk, respond_eq,
      State.setPar, h4]⟩
  · exact .inl ⟨statusOk, _, _, by simp [exec, execGetp, State.setServing, respondOk, respond_eq, h5]; rfl⟩
  · exact .inr <| .inr <| .inl ⟨h6, _, _, rfl, by simp [exec, execGetstr, State.setServing, respondOk,
      respond_eq, State.setStrbuf, h6]⟩
  · exact .inl ⟨statusOk, _, _, by simp [exec, execGetbmp, State.setServing, respondOk, respond_eq, h7]; rfl⟩
  · exact .inl ⟨statusUnknownOp, 0, 0, by simp [turnAway, respond_eq, State.setServing]⟩

/-! ### One step -/

/-- A step that answers a next state is one of these: nothing (idle), a command served on port C or
on port A, a sample step, the end of a PROCESS, a command presented on a port, a platform write, a hardware
reset. Whichever it is, it starts from `s` or from `s` with the arbiter's turn moved on. -/
theorem step_kinds {s t : State} (h : step s = .next t) :
    t = s ∨ ∃ s', (s' = s ∨ s' = s.setTurn (s.turn + 1)) ∧
      ((∃ w, s.portC.pend = some w ∧ serveCommand .C w s' = .next t) ∨
       (∃ w, s.seq.busy = false ∧ s.portA.pend = some w ∧ serveCommand .A w s' = .next t) ∨
       (s.seq.busy = true ∧ s.seq.fidx ≠ s.seq.fcnt ∧ sampleStep s' = .next t) ∨
       (s.seq.busy = true ∧ s.seq.fidx = s.seq.fcnt ∧ t = endProcess s') ∨
       (∃ w ws, s.portA.pend = none ∧ s.portA.host = w :: ws ∧
         t = s'.setPort .A { s.portA with pend := some w, host := ws }) ∨
       (∃ w ws, s.portC.pend = none ∧ s.portC.host = w :: ws ∧
         t = s'.setPort .C { s.portC with pend := some w, host := ws }) ∨
       (∃ a v es, s.platform = .store a v :: es ∧
         t = (s'.setMem (memWrite s.mem a v)).setPlatform es) ∨
       (∃ es, s.platform = .hardwareReset :: es ∧ t = (hardwareReset s').setPlatform es)) := by
  rcases step_cases s with ⟨-, h'⟩ | ⟨a, s', ha, hs, h'⟩
  · rw [h'] at h; cases h; exact .inl rfl
  refine .inr ⟨s', hs, ?_⟩
  have hA : s'.portA = s.portA := by rcases hs with rfl | rfl <;> rfl
  have hC : s'.portC = s.portC := by rcases hs with rfl | rfl <;> rfl
  have hq : s'.seq = s.seq := by rcases hs with rfl | rfl <;> rfl
  have hm : s'.mem = s.mem := by rcases hs with rfl | rfl <;> rfl
  have hp : s'.platform = s.platform := by rcases hs with rfl | rfl <;> rfl
  rw [h'] at h
  cases a
  · simp only [enabled, Bool.and_eq_true, Option.isNone_iff_eq_none, Bool.not_eq_true',
      List.isEmpty_eq_false_iff] at ha
    obtain ⟨w, ws, hw⟩ := List.exists_cons_of_ne_nil ha.2
    refine .inr <| .inr <| .inr <| .inr <| .inl ⟨w, ws, ha.1, hw, ?_⟩
    simp only [takeAction, present, State.port, hA, ha.1, hw, Host.Outcome.next.injEq] at h
    exact h.symm
  · simp only [enabled, Bool.and_eq_true, Option.isNone_iff_eq_none, Bool.not_eq_true',
      List.isEmpty_eq_false_iff] at ha
    obtain ⟨w, ws, hw⟩ := List.exists_cons_of_ne_nil ha.2
    refine .inr <| .inr <| .inr <| .inr <| .inr <| .inl ⟨w, ws, ha.1, hw, ?_⟩
    simp only [takeAction, present, State.port, hC, ha.1, hw, Host.Outcome.next.injEq] at h
    exact h.symm
  · simp only [takeAction, platformStep, hp, hm, Host.Outcome.next.injEq] at h
    cases he : s.platform with
    | nil => simp [enabled, he] at ha
    | cons e es =>
      rw [he] at h
      cases e with
      | store a v => exact .inr <| .inr <| .inr <| .inr <| .inr <| .inr <| .inl ⟨a, v, es, rfl, h.symm⟩
      | hardwareReset => exact .inr <| .inr <| .inr <| .inr <| .inr <| .inr <| .inr ⟨es, rfl, h.symm⟩
  · obtain ⟨w, hw⟩ := Option.isSome_iff_exists.1 ha
    exact .inl ⟨w, hw, by simpa [takeAction, serveC, hC, hw] using h⟩
  · by_cases hb : s.seq.busy = true
    · by_cases hf : s.seq.fidx = s.seq.fcnt
      · refine .inr <| .inr <| .inr <| .inl ⟨hb, hf, ?_⟩
        simp only [takeAction, serveA, hq, hb, hf, if_true, Host.Outcome.next.injEq] at h
        exact h.symm
      · exact .inr <| .inr <| .inl ⟨hb, hf, by simpa [takeAction, serveA, hq, hb, hf] using h⟩
    · simp only [Bool.not_eq_true] at hb
      obtain ⟨w, hw⟩ := Option.isSome_iff_exists.1 (by simpa [enabled, hb] using ha)
      exact .inr <| .inl ⟨w, hb, hw, by simpa [takeAction, serveA, hq, hb, hA, hw] using h⟩

end Sys2Proof.Machine
end

