-- ==== Sys2Proof/Laws/Memory.lean ====
section
/-! SUPPORT. The sample memory: reading after writing, and the canonical form kept by every write. -/

namespace Sys2Proof.Machine

theorem readByte_writeByte_same (m : Memory) (a : Nat) (b : Byte) (h : m.Pairwise (fun x y => x.1 < y.1)) :
    readByte (writeByte m a b) a = b := by
  have absent (l : Memory) (hl : ∀ c ∈ l, a < c.1) : readByte l a = Config.unlistedByte := by
    induction l with
    | nil => rfl
    | cons c l ih =>
      have h1 := hl c (by simp)
      have : c.1 ≠ a := by omega
      simp [readByte, this, ih fun d hd => hl d (by simp [hd])]
  induction m with
  | nil =>
    unfold writeByte; split
    · next hb => simp [readByte, hb]
    · simp [readByte]
  | cons c m ih =>
    obtain ⟨h1, h2⟩ := List.pairwise_cons.1 h
    unfold writeByte; split
    · next hlt =>
      split
      · next hb =>
        rw [hb]; apply absent
        intro d hd; rcases List.mem_cons.1 hd with rfl | hd
        · exact hlt
        · exact hlt.trans (h1 d hd)
      · simp [readByte]
    · split
      · next heq =>
        subst heq; split
        · next hb => rw [hb]; exact absent m h1
        · simp [readByte]
      · next hne => simp [readByte, hne, ih h2]

theorem readByte_writeByte_ne (m : Memory) {a a' : Nat} (b : Byte) (hne : a ≠ a') :
    readByte (writeByte m a b) a' = readByte m a' := by
  induction m with
  | nil => unfold writeByte; split <;> simp [readByte, hne]
  | cons c m ih =>
    unfold writeByte; split
    · split <;> simp [readByte, hne]
    · split
      · next heq => subst heq; split <;> simp [readByte, hne]
      · simp only [readByte, ih]

theorem mem_writeByte {m : Memory} {a : Nat} {b : Byte} {c : Host.Cell} (h : c ∈ writeByte m a b) :
    (c = (a, b) ∧ b ≠ Config.unlistedByte) ∨ c ∈ m := by
  induction m with
  | nil => unfold writeByte at h; split at h <;> simp_all
  | cons d m ih =>
    unfold writeByte at h; split at h
    · split at h <;> simp_all
    · split at h
      · split at h
        · simp_all
        · simp_all; tauto
      · rcases List.mem_cons.1 h with rfl | h
        · simp
        · rcases ih h with h | h
          · exact .inl h
          · exact .inr (by simp [h])

/-- A write inside the memory keeps the canonical form. -/
theorem writeByte_wf {m : Memory} (h : m.wf) {a : Nat} (ha : a < memBytes) (b : Byte) :
    (writeByte m a b).wf := by
  refine ⟨?_, fun c hc => ?_⟩
  · obtain ⟨h, -⟩ := h
    induction m with
    | nil => unfold writeByte; split <;> simp
    | cons c m ih =>
      obtain ⟨h1, h2⟩ := List.pairwise_cons.1 h
      unfold writeByte; split
      · next hlt =>
        split
        · exact h
        · refine List.pairwise_cons.2 ⟨fun d hd => ?_, h⟩
          rcases List.mem_cons.1 hd with rfl | hd
          · exact hlt
          · exact hlt.trans (h1 d hd)
      · split
        · next heq =>
          subst heq; split
          · exact h2
          · exact List.pairwise_cons.2 ⟨h1, h2⟩
        · refine List.pairwise_cons.2 ⟨fun d hd => ?_, ih h2⟩
          rcases mem_writeByte hd with ⟨rfl, -⟩ | hd
          · simp only; omega
          · exact h1 d hd
  · rcases mem_writeByte hc with ⟨rfl, hb⟩ | hc
    · exact ⟨ha, hb⟩
    · exact h.2 c hc

theorem cellBase_lt (a : CellAddr) : cellBase a + 3 < memBytes := by
  have := a.isLt; unfold cellBase memBytes; omega

/-- Every write of a cell keeps the canonical form. -/
theorem memWrite_wf {m : Memory} (h : m.wf) (a : CellAddr) (v : Word) : (memWrite m a v).wf := by
  have := cellBase_lt a
  exact writeByte_wf (writeByte_wf (writeByte_wf (writeByte_wf h (by omega) _) (by omega) _)
    (by omega) _) (by omega) _

/-- A byte outside a written cell reads as before. -/
theorem readByte_memWrite_ne (m : Memory) (a : CellAddr) (v : Word) {k : Nat}
    (h : k < cellBase a ∨ cellBase a + 4 ≤ k) : readByte (memWrite m a v) k = readByte m k := by
  unfold memWrite
  rw [readByte_writeByte_ne _ _ (by omega), readByte_writeByte_ne _ _ (by omega),
    readByte_writeByte_ne _ _ (by omega), readByte_writeByte_ne _ _ (by omega)]

theorem bytes_of_word (v : Word) :
    v.extractLsb' 24 8 ++ v.extractLsb' 16 8 ++ v.extractLsb' 8 8 ++ v.extractLsb' 0 8 = v := by
  apply BitVec.eq_of_getLsbD_eq
  intro i hi
  simp only [BitVec.getLsbD_append, BitVec.getLsbD_extractLsb']
  by_cases h1 : i < 8
  · simp [h1]
  · by_cases h2 : i - 8 < 8
    · simp [h1, h2]; congr 1; omega
    · by_cases h3 : i - 8 - 8 < 8
      · simp [h1, h2, h3]; congr 1; omega
      · have h4 : i - 8 - 8 - 8 < 8 := by omega
        simp [h1, h2, h3, h4]; congr 1; omega

/-- Reading the cell just written gives what was written. -/
theorem memRead_memWrite_same {m : Memory} (h : m.wf) (a : CellAddr) (v : Word) :
    memRead (memWrite m a v) a = v := by
  have hb := cellBase_lt a
  have h0 := writeByte_wf h (a := cellBase a) (by omega) (v.extractLsb' 0 8)
  have h1 := writeByte_wf h0 (a := cellBase a + 1) (by omega) (v.extractLsb' 8 8)
  have h2 := writeByte_wf h1 (a := cellBase a + 2) (by omega) (v.extractLsb' 16 8)
  conv_rhs => rw [← bytes_of_word v]
  unfold memRead memWrite
  rw [readByte_writeByte_same _ _ _ h2.1,
    readByte_writeByte_ne _ _ (by omega), readByte_writeByte_same _ _ _ h1.1,
    readByte_writeByte_ne _ _ (by omega), readByte_writeByte_ne _ _ (by omega),
    readByte_writeByte_same _ _ _ h0.1,
    readByte_writeByte_ne _ _ (by omega), readByte_writeByte_ne _ _ (by omega),
    readByte_writeByte_ne _ _ (by omega), readByte_writeByte_same _ _ _ h.1]

/-- Every other cell reads as before. -/
theorem memRead_memWrite_ne (m : Memory) {a a' : CellAddr} (v : Word) (h : a ≠ a') :
    memRead (memWrite m a v) a' = memRead m a' := by
  have hne : a.toNat ≠ a'.toNat := fun e => h (BitVec.eq_of_toNat_eq e)
  have (j : Nat) (hj : j < 4) :
      readByte (memWrite m a v) (cellBase a' + j) = readByte m (cellBase a' + j) :=
    readByte_memWrite_ne m a v (by unfold cellBase; omega)
  unfold memRead
  rw [this 3 (by omega), this 2 (by omega), this 1 (by omega)]
  congr 1
  exact this 0 (by omega)

theorem reset_mem_wf : State.reset.mem.wf := by
  refine ⟨List.Pairwise.nil, ?_⟩
  intro c hc; cases hc

end Sys2Proof.Machine
end

