-- ==== Sys2Proof/Laws/PerInstr.lean ====
section
/-! SUPPORT. Facts about every operation as syntax, one lemma per constructor. -/

namespace Sys2Proof.Laws.OpcodeClass

/-- The opcode of an operation's code: the table of 30_encoding.md R45, whose high nibble is 0 for the audio
class and 1 for the parameter class; a stage operation has a slot label and no command word (R54). -/
def Statement (i : Instr) : Prop :=
  match i, encode i with
  | .init, .command w => opField w = 0x01#8
  | .reset, .command w => opField w = 0x02#8
  | .process _ _ _, .command w => opField w = 0x03#8
  | .setp _ _, .command w => opField w = 0x10#8
  | .getp _, .command w => opField w = 0x11#8
  | .getstr _ _, .command w => opField w = 0x12#8
  | .getbmp _ _, .command w => opField w = 0x13#8
  | .clip, .label l => l = 1
  | .bass1, .label l => l = 2
  | .bass2, .label l => l = 3
  | .high, .label l => l = 4
  | .drive, .label l => l = 5
  | .comp, .label l => l = 6
  | .wshape, .label l => l = 7
  | .sat, .label l => l = 8
  | .luti, .label l => l = 9
  | _, _ => False

theorem init : Statement .init := opField_rawWord _ _ _ _ _ _
theorem reset : Statement .reset := opField_rawWord _ _ _ _ _ _
theorem process (src dst : CellAddr) (n : Nat) : Statement (.process src dst n) :=
  opField_rawWord _ _ _ _ _ _
theorem setp (id : Nat) (v : Int) : Statement (.setp id v) := opField_rawWord _ _ _ _ _ _
theorem getp (id : Nat) : Statement (.getp id) := opField_rawWord _ _ _ _ _ _
theorem getstr (id : Nat) (v : Int) : Statement (.getstr id v) := opField_rawWord _ _ _ _ _ _
theorem getbmp (id : Nat) (v : Int) : Statement (.getbmp id v) := opField_rawWord _ _ _ _ _ _
theorem clip : Statement .clip := rfl
theorem bass1 : Statement .bass1 := rfl
theorem bass2 : Statement .bass2 := rfl
theorem high : Statement .high := rfl
theorem drive : Statement .drive := rfl
theorem comp : Statement .comp := rfl
theorem wshape : Statement .wshape := rfl
theorem sat : Statement .sat := rfl
theorem luti : Statement .luti := rfl

end Sys2Proof.Laws.OpcodeClass
end

