-- ==== Sys2Proof/Machine/Reference.lean ====
section
/-! DEFINITION. The reference instances of the elementary functions (40_numerics.md R67, R68, R69): the real
function rounded once to binary32, ties to even. They are evaluated here in fixed point with many more
bits than a rounding can need (log entry 18). The machine itself runs on the platform's units
(Config.lean), which these are only one admissible value of; the spec's vectors marked (ref) are for these. -/

namespace Sys2Proof.Machine

open Sys2Proof.Config

/-! ### Fixed point -/

/-- Bits after the binary point in the tangent and power units. -/
def refBits : Nat := 256

/-- Horner's form of the exponential series: `1 + t·r/n`, then `1 + t·(that)/(n−1)`, down to 1. -/
def expSeries (t : Int) : Nat → Int → Int
  | 0, r => r
  | n + 1, r => expSeries t n (2 ^ refBits + t * r / (2 ^ refBits * ((n : Int) + 1)))

/-- `k` squarings. -/
def squareTimes : Nat → Int → Int
  | 0, r => r
  | k + 1, r => squareTimes k (r * r / 2 ^ refBits)

/-- `exp(t)` for a fixed-point `t` between −64 and 1: the series at `t / 2^16`, squared sixteen times. -/
def fixExp (t : Int) : Int := squareTimes 16 (expSeries (t / 2 ^ 16) 30 (2 ^ refBits))

/-- The series of the area tangent at `z`, whose square is `z2`. -/
def atanhSeries (z2 : Int) : Nat → Int → Int
  | 0, r => r
  | n + 1, r => atanhSeries z2 n (2 ^ refBits / (2 * (n : Int) + 1) + z2 * r / 2 ^ refBits)

/-- `ln(num/den)` for `1 ≤ num/den ≤ 2`: twice the area tangent of `(num − den)/(num + den)`. -/
def fixLn (num den : Int) : Int :=
  let z := (num - den) * 2 ^ refBits / (num + den)
  2 * z * atanhSeries (z * z / 2 ^ refBits) 90 0 / 2 ^ refBits

/-- The natural logarithm of 2. -/
def fixLn2 : Int := fixLn 2 1

/-! ### TANH32 (R67) -/

/-- `tanh` of a positive finite magnitude: below 2^-12 the cubic term is less than half a unit in the last
place, from 16 on the value rounds to 1; else `(1 − E)/(1 + E)` with `E = exp(−2x)`. -/
def refTanhMag (m : Nat) : Nat :=
  let q := quanta binary32 m
  if q < 2 ^ 137 then m
  else if 2 ^ 153 ≤ q then fmag f1
  else
    let e := fixExp (-(q * 2 ^ (refBits - 148) : Int))
    roundMag binary32 ((2 ^ refBits - e).toNat * 2 ^ 149) (2 ^ refBits + e).toNat

def refTanh (x : Word) : Word :=
  if isNaN x then QNAN32 else BitVec.ofNat 32 (packPat binary32 (fsign x) (refTanhMag (fmag x)))

/-! ### SIN32 (R68) -/

/-- Bits after the binary point in the sine unit: enough to reduce any binary32 operand by the period. -/
def sinBits : Nat := 352

/-- The real `π` in that fixed point, rounded down. -/
def fixPi : Nat :=
  0x3_243F6A88_85A308D3_13198A2E_03707344_A4093822_299F31D0_082EFA98_EC4E6C89_452821E6_38D01377_BE5466CF

/-- The sine series `1 − z2/(2n(2n+1)) · r`, from the last term down. -/
def sinSeries (z2 : Int) : Nat → Int → Int
  | 0, r => r
  | n + 1, r =>
    sinSeries z2 n (2 ^ sinBits - z2 * r / (2 ^ sinBits * ((2 * (n : Int) + 2) * (2 * (n : Int) + 3))))

/-- `sin` of a positive finite magnitude, with its sign. -/
def refSinMag (m : Nat) : Bool × Nat :=
  let q := quanta binary32 m
  if q < 2 ^ 137 then (false, m)
  else
    let r := q * 2 ^ (sinBits - 149) % (2 * fixPi)
    let h := if fixPi ≤ r then r - fixPi else r
    let a : Int := if fixPi < 2 * h then fixPi - h else h
    let v := a * sinSeries (a * a / 2 ^ sinBits) 50 (2 ^ sinBits) / 2 ^ sinBits
    (decide (fixPi ≤ r), roundMag binary32 (v.toNat * 2 ^ 149) (2 ^ sinBits))

def refSin (x : Word) : Word :=
  if isFinite x then
    let r := refSinMag (fmag x)
    BitVec.ofNat 32 (packPat binary32 (fsign x != r.1) r.2)
  else QNAN32

/-! ### POW32 (R69) -/

/-- Take out factors of two: `(m, a)` with the number `m × 2^a`, `m` odd. -/
def oddPart : Nat → Nat → Int → Nat × Int
  | 0, m, a => (m, a)
  | fuel + 1, m, a => if m % 2 = 0 then oddPart fuel (m / 2) (a + 1) else (m, a)

/-- Integer square root by bits. -/
def isqrt : Nat → Nat → Nat → Nat
  | 0, r, _ => r
  | k + 1, r, n => isqrt k (if (r + 2 ^ k) * (r + 2 ^ k) ≤ n then r + 2 ^ k else r) n

/-- `b` square roots of `m × 2^a`, when they are exact. -/
def exactRoots : Nat → Nat → Int → Option (Nat × Int)
  | 0, m, a => some (m, a)
  | b + 1, m, a =>
    let r := isqrt 13 0 m
    if r * r = m ∧ a % 2 = 0 then exactRoots b r (a / 2) else none

/-- `num × 2^e` quanta to a magnitude pattern; far outside the range it is an infinity or a zero. -/
def roundScaled (num : Nat) (e : Int) (bits : Nat) : Nat :=
  if 300 < e then infMag binary32
  else if e < -1000 then 0
  else roundMag binary32 (num * 2 ^ (e + 1000).toNat) (2 ^ (1000 + bits))

/-- The power of a positive finite base, not 1, to a finite exponent, not 0, when the result is a
terminating binary fraction: the only results that can lie on or halfway between binary32 values. -/
def exactPow (q : Nat) (y : Int) : Option Nat :=
  let (m, a) := oddPart 300 q (-149)
  let (yn, b) := oddPart 300 y.natAbs (-149)
  match exactRoots (-b).toNat m a with
  | none => none
  | some (m, a) =>
    let n : Int := (if y < 0 then -1 else 1) * (yn * 2 ^ b.toNat : Nat)
    if m = 1 then some (roundScaled 1 (a * n + 149) 0)
    else if 0 < n ∧ n ≤ 16 then some (roundScaled (m ^ n.toNat) (a * n + 149) 0)
    else none

/-- The same power when it is no such fraction: `exp(y · ln x)`, with `x = m × 2^e`, `1 ≤ m < 2`. -/
def approxPow (q : Nat) (y : Int) : Nat :=
  let k := Nat.log2 q
  let lnx := fixLn q (2 ^ k) + ((k : Int) - 149) * fixLn2
  let l := y * lnx / 2 ^ 149
  let e := l / fixLn2
  if 200 < e then infMag binary32
  else if e < -200 then 0
  else roundScaled (fixExp (l - e * fixLn2)).toNat (e + 149) refBits

def refPowMag (x y : Word) : Nat :=
  match exactPow (quanta binary32 (fmag x)) (fquanta y) with
  | some m => m
  | none => approxPow (quanta binary32 (fmag x)) (fquanta y)

/-- The value is an integer. -/
def isInteger (y : Word) : Bool := isFinite y && decide (fquanta y % 2 ^ 149 = 0)

/-- `x^y`, with the special cases of IEEE 754-2019 `pow` (R69). -/
def refPow (x y : Word) : Word :=
  let odd := isOddInteger y
  let neg := fsign x && odd
  if feq0 y || x == f1 then f1
  else if isNaN x || isNaN y then QNAN32
  else if feq0 x then
    BitVec.ofNat 32 (packPat binary32 neg (if fgt0 y then 0 else infMag binary32))
  else if isInf y then
    if fmag x = fmag f1 then f1
    else if decide (fmag f1 < fmag x) == fgt0 y then posInf else posZero
  else if isInf x then
    BitVec.ofNat 32 (packPat binary32 neg (if fgt0 y then infMag binary32 else 0))
  else if fsign x && !isInteger y then QNAN32
  else if fmag x = fmag f1 then BitVec.ofNat 32 (packPat binary32 neg (fmag f1))
  else BitVec.ofNat 32 (packPat binary32 neg (refPowMag x y))

/-- The reference instances (R67 to R69). -/
def referenceUnits : ElemUnits := ⟨refTanh, refSin, refPow⟩

end Sys2Proof.Machine
end

