-- ==== Sys2Proof/Machine/ReferenceRom.lean ====
section
/-! DEFINITION. The reference image of the sine ROM (44_sine_lut.md R102, section 4): words 0 to 2047 as
listed there, eight words a row, and the rest by (R-odd) and (R-ends) of R103. The machine itself runs on
the platform's image (Config.lean), which this is only one admissible value of. -/

namespace Sys2Proof.Machine

/-- The eight words of a row, the first the most significant. -/
def romRow (r : Nat) : List Word :=
  [BitVec.ofNat 32 (r >>> 224), BitVec.ofNat 32 (r >>> 192), BitVec.ofNat 32 (r >>> 160),
   BitVec.ofNat 32 (r >>> 128), BitVec.ofNat 32 (r >>> 96), BitVec.ofNat 32 (r >>> 64),
   BitVec.ofNat 32 (r >>> 32), BitVec.ofNat 32 r]

/-- Words 0 to 127. -/
def romRows0 : List Nat := [
  0x00000000_BAC91C67_BB491C58_BB96D52E_BBC91C1A_BBFB62E6_BC16D4C6_BC2FF801,
  0xBC491B21_BC623E23_BC7B6101_BC8A41DC_BC96D323_BCA36452_BCAFF568_BCBC8663,
  0xBCC91741_BCD5A7FF_BCE2389D_BCEEC918_BCFB596E_BD03F4CF_BD0A3CD2_BD1084C0,
  0xBD16CC97_BD1D1458_BD235C00_BD29A38F_BD2FEB04_BD36325D_BD3C799B_BD42C0BB,
  0xBD4907BD_BD4F4EA1_BD559564_BD5BDC07_BD622287_BD6868E5_BD6EAF1E_BD74F533,
  0xBD7B3B22_BD80C075_BD83E346_BD870602_BD8A28A9_BD8D4B3B_BD906DB7_BD93901C,
  0xBD96B26B_BD99D4A3_BD9CF6C3_BDA018CB_BDA33ABA_BDA65C90_BDA97E4C_BDAC9FEE,
  0xBDAFC176_BDB2E2E2_BDB60433_BDB92567_BDBC467F_BDBF677A_BDC28858_BDC5A917,
  0xBDC8C9B8_BDCBEA3A_BDCF0A9D_BDD22ADF_BDD54B01_BDD86B03_BDDB8AE3_BDDEAAA1,
  0xBDE1CA3C_BDE4E9B5_BDE8090A_BDEB283C_BDEE474A_BDF16632_BDF484F6_BDF7A393,
  0xBDFAC20B_BDFDE05B_BE007F43_BE020E43_BE039D30_BE052C09_BE06BACD_BE08497C,
  0xBE09D817_BE0B669C_BE0CF50B_BE0E8365_BE1011A8_BE119FD6_BE132DED_BE14BBED,
  0xBE1649D7_BE17D7A9_BE196564_BE1AF307_BE1C8092_BE1E0E05_BE1F9B60_BE2128A2,
  0xBE22B5CB_BE2442DB_BE25CFD2_BE275CAF_BE28E972_BE2A761B_BE2C02AA_BE2D8F1F,
  0xBE2F1B78_BE30A7B7_BE3233DA_BE33BFE2_BE354BCE_BE36D79E_BE386352_BE39EEEA,
  0xBE3B7A65_BE3D05C3_BE3E9103_BE401C27_BE41A72C_BE433214_BE44BCDE_BE464789]

/-- Words 128 to 255. -/
def romRows128 : List Nat := [
  0xBE47D216_BE495C84_BE4AE6D3_BE4C7102_BE4DFB12_BE4F8502_BE510ED3_BE529882,
  0xBE542212_BE55AB81_BE5734CE_BE58BDFB_BE5A4706_BE5BCFEF_BE5D58B7_BE5EE15C,
  0xBE6069DF_BE61F240_BE637A7D_BE650298_BE668A8F_BE681262_BE699A12_BE6B219D,
  0xBE6CA905_BE6E3048_BE6FB766_BE713E5F_BE72C533_BE744BE1_BE75D26A_BE7758CD,
  0xBE78DF09_BE7A6520_BE7BEB0F_BE7D70D8_BE7EF67A_BE803DFA_BE8100A3_BE81C339,
  0xBE8285BA_BE834828_BE840A81_BE84CCC5_BE858EF6_BE865111_BE871318_BE87D50A,
  0xBE8896E7_BE8958AF_BE8A1A62_BE8ADBFF_BE8B9D88_BE8C5EFA_BE8D2057_BE8DE19E,
  0xBE8EA2CF_BE8F63EA_BE9024EF_BE90E5DE_BE91A6B7_BE926779_BE932824_BE93E8B9,
  0xBE94A937_BE95699E_BE9629EE_BE96EA26_BE97AA48_BE986A52_BE992A45_BE99EA1F,
  0xBE9AA9E3_BE9B698E_BE9C2921_BE9CE89C_BE9DA7FF_BE9E674A_BE9F267C_BE9FE596,
  0xBEA0A497_BEA1637F_BEA2224F_BEA2E105_BEA39FA2_BEA45E26_BEA51C91_BEA5DAE2,
  0xBEA69919_BEA75737_BEA8153B_BEA8D325_BEA990F5_BEAA4EAB_BEAB0C47_BEABC9C8,
  0xBEAC872F_BEAD447B_BEAE01AC_BEAEBEC3_BEAF7BBE_BEB0389E_BEB0F564_BEB1B20E,
  0xBEB26E9C_BEB32B0F_BEB3E767_BEB4A3A2_BEB55FC2_BEB61BC6_BEB6D7AD_BEB79379,
  0xBEB84F28_BEB90ABB_BEB9C631_BEBA818A_BEBB3CC7_BEBBF7E7_BEBCB2EA_BEBD6DCF,
  0xBEBE2898_BEBEE343_BEBF9DD1_BEC05841_BEC11293_BEC1CCC8_BEC286DF_BEC340D7]

/-- Words 256 to 383. -/
def romRows256 : List Nat := [
  0xBEC3FAB2_BEC4B46E_BEC56E0C_BEC6278C_BEC6E0ED_BEC79A2F_BEC85353_BEC90C57,
  0xBEC9C53D_BECA7E03_BECB36AB_BECBEF33_BECCA79B_BECD5FE4_BECE180D_BECED016,
  0xBECF8800_BED03FC9_BED0F772_BED1AEFB_BED26664_BED31DAC_BED3D4D4_BED48BDB,
  0xBED542C1_BED5F986_BED6B02B_BED766AE_BED81D10_BED8D350_BED9896F_BEDA3F6D,
  0xBEDAF549_BEDBAB03_BEDC609B_BEDD1611_BEDDCB65_BEDE8097_BEDF35A7_BEDFEA94,
  0xBEE09F5E_BEE15406_BEE2088B_BEE2BCED_BEE3712D_BEE42549_BEE4D942_BEE58D18,
  0xBEE640CA_BEE6F459_BEE7A7C4_BEE85B0B_BEE90E2E_BEE9C12E_BEEA7409_BEEB26C1,
  0xBEEBD954_BEEC8BC2_BEED3E0D_BEEDF032_BEEEA233_BEEF540F_BEF005C6_BEF0B758,
  0xBEF168C5_BEF21A0D_BEF2CB2F_BEF37C2C_BEF42D03_BEF4DDB5_BEF58E40_BEF63EA6,
  0xBEF6EEE6_BEF79F00_BEF84EF4_BEF8FEC1_BEF9AE68_BEFA5DE8_BEFB0D42_BEFBBC75,
  0xBEFC6B81_BEFD1A67_BEFDC925_BEFE77BC_BEFF262C_BEFFD474_BF00414A_BF009847,
  0xBF00EF30_BF014605_BF019CC6_BF01F373_BF024A0C_BF02A091_BF02F701_BF034D5E,
  0xBF03A3A6_BF03F9DA_BF044FFA_BF04A605_BF04FBFC_BF0551DE_BF05A7AB_BF05FD64,
  0xBF065309_BF06A898_BF06FE13_BF075379_BF07A8CA_BF07FE06_BF08532D_BF08A83F,
  0xBF08FD3D_BF095224_BF09A6F7_BF09FBB5_BF0A505D_BF0AA4F0_BF0AF96D_BF0B4DD5,
  0xBF0BA228_BF0BF665_BF0C4A8C_BF0C9E9E_BF0CF29A_BF0D4680_BF0D9A51_BF0DEE0C]

/-- Words 384 to 511. -/
def romRows384 : List Nat := [
  0xBF0E41B0_BF0E953F_BF0EE8B8_BF0F3C1B_BF0F8F67_BF0FE29E_BF1035BE_BF1088C8,
  0xBF10DBBC_BF112E9A_BF118161_BF11D411_BF1226AB_BF12792F_BF12CB9C_BF131DF2,
  0xBF137032_BF13C25A_BF14146C_BF146668_BF14B84C_BF150A19_BF155BD0_BF15AD6F,
  0xBF15FEF7_BF165068_BF16A1C2_BF16F305_BF174430_BF179544_BF17E641_BF183726,
  0xBF1887F4_BF18D8AA_BF192948_BF1979CF_BF19CA3F_BF1A1A96_BF1A6AD6_BF1ABAFE,
  0xBF1B0B0E_BF1B5B06_BF1BAAE6_BF1BFAAF_BF1C4A5F_BF1C99F7_BF1CE977_BF1D38DE,
  0xBF1D882E_BF1DD765_BF1E2683_BF1E758A_BF1EC477_BF1F134D_BF1F620A_BF1FB0AE,
  0xBF1FFF39_BF204DAC_BF209C06_BF20EA48_BF213870_BF218680_BF21D477_BF222255,
  0xBF227019_BF22BDC5_BF230B58_BF2358D1_BF23A631_BF23F378_BF2440A6_BF248DBB,
  0xBF24DAB6_BF252797_BF25745F_BF25C10E_BF260DA3_BF265A1E_BF26A680_BF26F2C8,
  0xBF273EF6_BF278B0A_BF27D705_BF2822E5_BF286EAC_BF28BA59_BF2905EC_BF295164,
  0xBF299CC3_BF29E807_BF2A3331_BF2A7E41_BF2AC936_BF2B1412_BF2B5ED2_BF2BA979,
  0xBF2BF405_BF2C3E76_BF2C88CD_BF2CD309_BF2D1D2A_BF2D6731_BF2DB11D_BF2DFAEE,
  0xBF2E44A5_BF2E8E40_BF2ED7C1_BF2F2126_BF2F6A71_BF2FB3A0_BF2FFCB5_BF3045AE,
  0xBF308E8C_BF30D74F_BF311FF6_BF316883_BF31B0F3_BF31F949_BF324183_BF3289A1,
  0xBF32D1A4_BF33198B_BF336157_BF33A907_BF33F09B_BF343814_BF347F70_BF34C6B1]

/-- Words 512 to 639. -/
def romRows512 : List Nat := [
  0xBF350DD6_BF3554DF_BF359BCC_BF35E29D_BF362952_BF366FEB_BF36B668_BF36FCC8,
  0xBF37430D_BF378935_BF37CF40_BF381530_BF385B03_BF38A0B9_BF38E653_BF392BD1,
  0xBF397132_BF39B676_BF39FB9E_BF3A40A9_BF3A8597_BF3ACA68_BF3B0F1D_BF3B53B5,
  0xBF3B982F_BF3BDC8D_BF3C20CE_BF3C64F2_BF3CA8F9_BF3CECE3_BF3D30AF_BF3D745F,
  0xBF3DB7F1_BF3DFB66_BF3E3EBD_BF3E81F7_BF3EC514_BF3F0814_BF3F4AF6_BF3F8DBA,
  0xBF3FD061_BF4012EA_BF405556_BF4097A4_BF40D9D4_BF411BE6_BF415DDB_BF419FB2,
  0xBF41E16B_BF422306_BF426483_BF42A5E2_BF42E723_BF432846_BF43694B_BF43AA32,
  0xBF43EAFA_BF442BA5_BF446C31_BF44AC9F_BF44ECEE_BF452D1F_BF456D32_BF45AD26,
  0xBF45ECFC_BF462CB3_BF466C4B_BF46ABC5_BF46EB20_BF472A5D_BF47697B_BF47A87A,
  0xBF47E75A_BF48261C_BF4864BE_BF48A342_BF48E1A7_BF491FEC_BF495E13_BF499C1A,
  0xBF49DA03_BF4A17CC_BF4A5576_BF4A9301_BF4AD06D_BF4B0DBA_BF4B4AE7_BF4B87F4,
  0xBF4BC4E3_BF4C01B1_BF4C3E61_BF4C7AF1_BF4CB761_BF4CF3B2_BF4D2FE3_BF4D6BF4,
  0xBF4DA7E6_BF4DE3B8_BF4E1F6A_BF4E5AFD_BF4E9670_BF4ED1C2_BF4F0CF5_BF4F4808,
  0xBF4F82FB_BF4FBDCE_BF4FF881_BF503313_BF506D86_BF50A7D9_BF50E20B_BF511C1D,
  0xBF51560F_BF518FE0_BF51C991_BF520322_BF523C93_BF5275E3_BF52AF12_BF52E821,
  0xBF532110_BF5359DD_BF53928B_BF53CB17_BF540383_BF543BCE_BF5473F9_BF54AC03]

/-- Words 640 to 767. -/
def romRows640 : List Nat := [
  0xBF54E3EC_BF551BB4_BF55535B_BF558AE1_BF55C246_BF55F98B_BF5630AE_BF5667B0,
  0xBF569E91_BF56D551_BF570BF0_BF57426E_BF5778CB_BF57AF06_BF57E520_BF581B19,
  0xBF5850F0_BF5886A6_BF58BC3B_BF58F1AE_BF5926FF_BF595C30_BF59913E_BF59C62B,
  0xBF59FAF7_BF5A2FA0_BF5A6429_BF5A988F_BF5ACCD4_BF5B00F7_BF5B34F8_BF5B68D7,
  0xBF5B9C95_BF5BD031_BF5C03AA_BF5C3702_BF5C6A38_BF5C9D4C_BF5CD03D_BF5D030D,
  0xBF5D35BB_BF5D6846_BF5D9AAF_BF5DCCF7_BF5DFF1B_BF5E311E_BF5E62FE_BF5E94BC,
  0xBF5EC658_BF5EF7D1_BF5F2928_BF5F5A5D_BF5F8B6F_BF5FBC5E_BF5FED2B_BF601DD6,
  0xBF604E5E_BF607EC3_BF60AF06_BF60DF26_BF610F23_BF613EFE_BF616EB5_BF619E4A,
  0xBF61CDBD_BF61FD0C_BF622C39_BF625B42_BF628A29_BF62B8ED_BF62E78D_BF63160B,
  0xBF634466_BF63729E_BF63A0B2_BF63CEA4_BF63FC72_BF642A1D_BF6457A5_BF64850A,
  0xBF64B24B_BF64DF69_BF650C64_BF65393B_BF6565F0_BF659280_BF65BEEE_BF65EB37,
  0xBF66175E_BF664361_BF666F40_BF669AFC_BF66C694_BF66F209_BF671D5A_BF674887,
  0xBF677391_BF679E77_BF67C939_BF67F3D7_BF681E52_BF6848A9_BF6872DC_BF689CEB,
  0xBF68C6D6_BF68F09E_BF691A41_BF6943C0_BF696D1C_BF699653_BF69BF67_BF69E856,
  0xBF6A1121_BF6A39C8_BF6A624B_BF6A8AAA_BF6AB2E5_BF6ADAFB_BF6B02ED_BF6B2ABB,
  0xBF6B5265_BF6B79EA_BF6BA14B_BF6BC888_BF6BEFA0_BF6C1694_BF6C3D63_BF6C640E]

/-- Words 768 to 895. -/
def romRows768 : List Nat := [
  0xBF6C8A95_BF6CB0F7_BF6CD734_BF6CFD4D_BF6D2342_BF6D4912_BF6D6EBD_BF6D9443,
  0xBF6DB9A5_BF6DDEE3_BF6E03FB_BF6E28EF_BF6E4DBE_BF6E7268_BF6E96EE_BF6EBB4E,
  0xBF6EDF8A_BF6F03A1_BF6F2793_BF6F4B61_BF6F6F09_BF6F928C_BF6FB5EB_BF6FD924,
  0xBF6FFC39_BF701F28_BF7041F2_BF706498_BF708718_BF70A973_BF70CBA9_BF70EDBA,
  0xBF710FA5_BF71316C_BF71530D_BF717489_BF7195E0_BF71B711_BF71D81D_BF71F904,
  0xBF7219C6_BF723A62_BF725AD9_BF727B2A_BF729B56_BF72BB5C_BF72DB3E_BF72FAF9,
  0xBF731A8F_BF733A00_BF73594B_BF737871_BF739771_BF73B64B_BF73D500_BF73F38F,
  0xBF7411F9_BF74303C_BF744E5B_BF746C53_BF748A26_BF74A7D3_BF74C55A_BF74E2BC,
  0xBF74FFF8_BF751D0E_BF7539FE_BF7556C8_BF75736D_BF758FEB_BF75AC44_BF75C877,
  0xBF75E484_BF76006B_BF761C2C_BF7637C7_BF76533C_BF766E8B_BF7689B4_BF76A4B7,
  0xBF76BF94_BF76DA4B_BF76F4DB_BF770F46_BF77298B_BF7743A9_BF775DA1_BF777773,
  0xBF77911F_BF77AAA5_BF77C405_BF77DD3E_BF77F651_BF780F3E_BF782804_BF7840A4,
  0xBF78591E_BF787172_BF78899F_BF78A1A6_BF78B987_BF78D141_BF78E8D5_BF790042,
  0xBF791789_BF792EAA_BF7945A4_BF795C77_BF797325_BF7989AB_BF79A00B_BF79B645,
  0xBF79CC58_BF79E245_BF79F80B_BF7A0DAA_BF7A2323_BF7A3876_BF7A4DA1_BF7A62A6,
  0xBF7A7785_BF7A8C3D_BF7AA0CE_BF7AB538_BF7AC97C_BF7ADD99_BF7AF190_BF7B055F]

/-- Words 896 to 1023. -/
def romRows896 : List Nat := [
  0xBF7B1908_BF7B2C8A_BF7B3FE6_BF7B531B_BF7B6628_BF7B7910_BF7B8BD0_BF7B9E69,
  0xBF7BB0DC_BF7BC328_BF7BD54D_BF7BE74B_BF7BF922_BF7C0AD3_BF7C1C5C_BF7C2DBF,
  0xBF7C3EFB_BF7C5010_BF7C60FD_BF7C71C4_BF7C8264_BF7C92DD_BF7CA32F_BF7CB35B,
  0xBF7CC35F_BF7CD33C_BF7CE2F2_BF7CF281_BF7D01E9_BF7D112A_BF7D2044_BF7D2F37,
  0xBF7D3E03_BF7D4CA8_BF7D5B25_BF7D697C_BF7D77AB_BF7D85B4_BF7D9395_BF7DA14F,
  0xBF7DAEE2_BF7DBC4E_BF7DC993_BF7DD6B0_BF7DE3A7_BF7DF076_BF7DFD1E_BF7E099F,
  0xBF7E15F9_BF7E222B_BF7E2E36_BF7E3A1B_BF7E45D7_BF7E516D_BF7E5CDB_BF7E6822,
  0xBF7E7342_BF7E7E3B_BF7E890C_BF7E93B6_BF7E9E39_BF7EA895_BF7EB2C9_BF7EBCD6,
  0xBF7EC6BB_BF7ED07A_BF7EDA11_BF7EE380_BF7EECC9_BF7EF5EA_BF7EFEE3_BF7F07B6,
  0xBF7F1061_BF7F18E4_BF7F2141_BF7F2976_BF7F3183_BF7F3969_BF7F4128_BF7F48C0,
  0xBF7F5030_BF7F5778_BF7F5E99_BF7F6593_BF7F6C66_BF7F7311_BF7F7994_BF7F7FF0,
  0xBF7F8625_BF7F8C33_BF7F9219_BF7F97D7_BF7F9D6E_BF7FA2DE_BF7FA826_BF7FAD47,
  0xBF7FB240_BF7FB712_BF7FBBBC_BF7FC03F_BF7FC49A_BF7FC8CE_BF7FCCDB_BF7FD0C0,
  0xBF7FD47E_BF7FD814_BF7FDB82_BF7FDECA_BF7FE1E9_BF7FE4E2_BF7FE7B2_BF7FEA5C,
  0xBF7FECDD_BF7FEF38_BF7FF16A_BF7FF376_BF7FF559_BF7FF716_BF7FF8AB_BF7FFA18,
  0xBF7FFB5E_BF7FFC7C_BF7FFD73_BF7FFE42_BF7FFEEA_BF7FFF6B_BF7FFFC4_BF7FFFF5]

/-- Words 1024 to 1151. -/
def romRows1024 : List Nat := [
  0xBF7FFFFF_BF7FFFE1_BF7FFF9C_BF7FFF2F_BF7FFE9B_BF7FFDE0_BF7FFCFD_BF7FFBF2,
  0xBF7FFAC0_BF7FF966_BF7FF7E5_BF7FF63D_BF7FF46D_BF7FF275_BF7FF056_BF7FEE0F,
  0xBF7FEBA1_BF7FE90C_BF7FE64F_BF7FE36A_BF7FE05E_BF7FDD2B_BF7FD9D0_BF7FD64E,
  0xBF7FD2A4_BF7FCED2_BF7FCADA_BF7FC6B9_BF7FC272_BF7FBE02_BF7FB96C_BF7FB4AE,
  0xBF7FAFC8_BF7FAABB_BF7FA587_BF7FA02B_BF7F9AA7_BF7F94FD_BF7F8F2A_BF7F8931,
  0xBF7F8310_BF7F7CC7_BF7F7657_BF7F6FC0_BF7F6901_BF7F621B_BF7F5B0E_BF7F53D9,
  0xBF7F4C7C_BF7F44F9_BF7F3D4E_BF7F357B_BF7F2D81_BF7F2560_BF7F1D17_BF7F14A7,
  0xBF7F0C10_BF7F0352_BF7EFA6C_BF7EF15E_BF7EE829_BF7EDECD_BF7ED54A_BF7ECB9F,
  0xBF7EC1CE_BF7EB7D4_BF7EADB4_BF7EA36C_BF7E98FD_BF7E8E66_BF7E83A9_BF7E78C4,
  0xBF7E6DB7_BF7E6284_BF7E5729_BF7E4BA7_BF7E3FFE_BF7E342D_BF7E2836_BF7E1C17,
  0xBF7E0FD1_BF7E0363_BF7DF6CF_BF7DEA13_BF7DDD31_BF7DD027_BF7DC2F5_BF7DB59D,
  0xBF7DA81E_BF7D9A77_BF7D8CA9_BF7D7EB4_BF7D7098_BF7D6255_BF7D53EB_BF7D455A,
  0xBF7D36A2_BF7D27C2_BF7D18BC_BF7D098E_BF7CFA3A_BF7CEABE_BF7CDB1C_BF7CCB52,
  0xBF7CBB61_BF7CAB4A_BF7C9B0B_BF7C8AA6_BF7C7A19_BF7C6966_BF7C588B_BF7C478A,
  0xBF7C3662_BF7C2513_BF7C139C_BF7C0200_BF7BF03C_BF7BDE51_BF7BCC3F_BF7BBA07,
  0xBF7BA7A8_BF7B9521_BF7B8275_BF7B6FA1_BF7B5CA6_BF7B4985_BF7B363D_BF7B22CE]

/-- Words 1152 to 1279. -/
def romRows1152 : List Nat := [
  0xBF7B0F39_BF7AFB7C_BF7AE799_BF7AD38F_BF7ABF5F_BF7AAB08_BF7A968A_BF7A81E6,
  0xBF7A6D1A_BF7A5829_BF7A4310_BF7A2DD1_BF7A186C_BF7A02DF_BF79ED2D_BF79D753,
  0xBF79C153_BF79AB2D_BF7994E0_BF797E6D_BF7967D3_BF795112_BF793A2C_BF79231E,
  0xBF790BEA_BF78F490_BF78DD10_BF78C569_BF78AD9B_BF7895A8_BF787D8D_BF78654D,
  0xBF784CE6_BF783459_BF781BA6_BF7802CC_BF77E9CC_BF77D0A6_BF77B75A_BF779DE7,
  0xBF77844E_BF776A8F_BF7750AA_BF77369F_BF771C6D_BF770216_BF76E798_BF76CCF4,
  0xBF76B22A_BF76973A_BF767C24_BF7660E8_BF764586_BF7629FE_BF760E50_BF75F27C,
  0xBF75D682_BF75BA62_BF759E1C_BF7581B1_BF75651F_BF754868_BF752B8B_BF750E88,
  0xBF74F15F_BF74D410_BF74B69B_BF749901_BF747B41_BF745D5C_BF743F50_BF74211F,
  0xBF7402C8_BF73E44C_BF73C5AA_BF73A6E3_BF7387F5_BF7368E3_BF7349AA_BF732A4C,
  0xBF730AC9_BF72EB20_BF72CB52_BF72AB5E_BF728B45_BF726B06_BF724AA2_BF722A18,
  0xBF720969_BF71E895_BF71C79C_BF71A67D_BF718539_BF7163D0_BF714241_BF71208D,
  0xBF70FEB4_BF70DCB6_BF70BA93_BF70984A_BF7075DC_BF70534A_BF703092_BF700DB5,
  0xBF6FEAB3_BF6FC78C_BF6FA440_BF6F80CF_BF6F5D39_BF6F397F_BF6F159F_BF6EF19A,
  0xBF6ECD71_BF6EA923_BF6E84B0_BF6E6018_BF6E3B5B_BF6E167A_BF6DF173_BF6DCC49,
  0xBF6DA6F9_BF6D8185_BF6D5BEC_BF6D362E_BF6D104C_BF6CEA45_BF6CC41A_BF6C9DCA]

/-- Words 1280 to 1407. -/
def romRows1280 : List Nat := [
  0xBF6C7756_BF6C50BD_BF6C2A00_BF6C031F_BF6BDC19_BF6BB4EE_BF6B8D9F_BF6B662C,
  0xBF6B3E95_BF6B16D9_BF6AEEF9_BF6AC6F4_BF6A9ECC_BF6A767F_BF6A4E0E_BF6A2579,
  0xBF69FCC0_BF69D3E3_BF69AAE1_BF6981BC_BF695873_BF692F05_BF690574_BF68DBBE,
  0xBF68B1E5_BF6887E8_BF685DC7_BF683382_BF680919_BF67DE8D_BF67B3DC_BF678908,
  0xBF675E10_BF6732F5_BF6707B6_BF66DC53_BF66B0CC_BF668522_BF665955_BF662D64,
  0xBF66014F_BF65D517_BF65A8BB_BF657C3C_BF654F9A_BF6522D4_BF64F5EB_BF64C8DE,
  0xBF649BAF_BF646E5C_BF6440E5_BF64134C_BF63E58F_BF63B7AF_BF6389AC_BF635B86,
  0xBF632D3D_BF62FED1_BF62D041_BF62A18F_BF6272BA_BF6243C2_BF6214A7_BF61E569,
  0xBF61B608_BF618684_BF6156DE_BF612715_BF60F729_BF60C71A_BF6096E9_BF606695,
  0xBF60361E_BF600585_BF5FD4C9_BF5FA3EB_BF5F72EA_BF5F41C7_BF5F1081_BF5EDF19,
  0xBF5EAD8F_BF5E7BE2_BF5E4A13_BF5E1821_BF5DE60D_BF5DB3D7_BF5D817F_BF5D4F05,
  0xBF5D1C68_BF5CE9AA_BF5CB6C9_BF5C83C6_BF5C50A1_BF5C1D5A_BF5BE9F2_BF5BB667,
  0xBF5B82BA_BF5B4EEC_BF5B1AFC_BF5AE6EA_BF5AB2B6_BF5A7E60_BF5A49E9_BF5A1550,
  0xBF59E095_BF59ABB9_BF5976BB_BF59419C_BF590C5B_BF58D6F8_BF58A174_BF586BCF,
  0xBF583608_BF580020_BF57CA17_BF5793EC_BF575DA1_BF572733_BF56F0A5_BF56B9F6,
  0xBF568325_BF564C33_BF561520_BF55DDED_BF55A698_BF556F22_BF55378B_BF54FFD4]

/-- Words 1408 to 1535. -/
def romRows1408 : List Nat := [
  0xBF54C7FB_BF549002_BF5457E8_BF541FAD_BF53E751_BF53AED5_BF537638_BF533D7B,
  0xBF53049C_BF52CB9E_BF52927E_BF52593F_BF521FDE_BF51E65E_BF51ACBD_BF5172FC,
  0xBF51391A_BF50FF18_BF50C4F6_BF508AB3_BF505051_BF5015CE_BF4FDB2B_BF4FA068,
  0xBF4F6586_BF4F2A83_BF4EEF60_BF4EB41D_BF4E78BA_BF4E3D38_BF4E0195_BF4DC5D3,
  0xBF4D89F1_BF4D4DF0_BF4D11CE_BF4CD58D_BF4C992D_BF4C5CAD_BF4C200D_BF4BE34E,
  0xBF4BA66F_BF4B6971_BF4B2C54_BF4AEF17_BF4AB1BB_BF4A7440_BF4A36A5_BF49F8EC,
  0xBF49BB13_BF497D1B_BF493F03_BF4900CD_BF48C278_BF488404_BF484571_BF4806BF,
  0xBF47C7EE_BF4788FE_BF4749F0_BF470AC3_BF46CB77_BF468C0C_BF464C83_BF460CDB,
  0xBF45CD15_BF458D30_BF454D2C_BF450D0A_BF44CCCA_BF448C6C_BF444BEF_BF440B53,
  0xBF43CA9A_BF4389C2_BF4348CC_BF4307B9_BF42C686_BF428536_BF4243C8_BF42023C,
  0xBF41C092_BF417ECA_BF413CE4_BF40FAE1_BF40B8C0_BF407680_BF403424_BF3FF1A9,
  0xBF3FAF11_BF3F6C5C_BF3F2988_BF3EE698_BF3EA38A_BF3E605E_BF3E1D15_BF3DD9AF,
  0xBF3D962B_BF3D528B_BF3D0ECD_BF3CCAF1_BF3C86F9_BF3C42E4_BF3BFEB1_BF3BBA62,
  0xBF3B75F6_BF3B316C_BF3AECC6_BF3AA803_BF3A6323_BF3A1E27_BF39D90D_BF3993D7,
  0xBF394E85_BF390916_BF38C38A_BF387DE2_BF38381D_BF37F23C_BF37AC3E_BF376624,
  0xBF371FEE_BF36D99C_BF36932D_BF364CA2_BF3605FB_BF35BF38_BF357859_BF35315E]

/-- Words 1536 to 1663. -/
def romRows1536 : List Nat := [
  0xBF34EA47_BF34A314_BF345BC6_BF34145B_BF33CCD5_BF338532_BF333D75_BF32F59B,
  0xBF32ADA6_BF326595_BF321D69_BF31D522_BF318CBE_BF314440_BF30FBA6_BF30B2F1,
  0xBF306A20_BF302135_BF2FD82E_BF2F8F0C_BF2F45CF_BF2EFC77_BF2EB304_BF2E6976,
  0xBF2E1FCD_BF2DD609_BF2D8C2B_BF2D4231_BF2CF81D_BF2CADEE_BF2C63A5_BF2C1941,
  0xBF2BCEC2_BF2B8429_BF2B3975_BF2AEEA7_BF2AA3BF_BF2A58BC_BF2A0D9F_BF29C268,
  0xBF297717_BF292BAB_BF28E025_BF289486_BF2848CC_BF27FCF8_BF27B10B_BF276503,
  0xBF2718E2_BF26CCA7_BF268052_BF2633E4_BF25E75B_BF259ABA_BF254DFE_BF250129,
  0xBF24B43B_BF246734_BF241A13_BF23CCD8_BF237F85_BF233218_BF22E492_BF2296F2,
  0xBF22493A_BF21FB69_BF21AD7F_BF215F7B_BF21115F_BF20C32A_BF2074DC_BF202676,
  0xBF1FD7F7_BF1F895F_BF1F3AAE_BF1EEBE5_BF1E9D04_BF1E4E09_BF1DFEF7_BF1DAFCC,
  0xBF1D6089_BF1D112D_BF1CC1BA_BF1C722E_BF1C228A_BF1BD2CE_BF1B82F9_BF1B330D,
  0xBF1AE309_BF1A92ED_BF1A42B9_BF19F26D_BF19A20A_BF19518F_BF1900FC_BF18B052,
  0xBF185F90_BF180EB6_BF17BDC5_BF176CBD_BF171B9D_BF16CA66_BF167918_BF1627B3,
  0xBF15D636_BF1584A2_BF1532F7_BF14E136_BF148F5D_BF143D6D_BF13EB66_BF139949,
  0xBF134715_BF12F4CA_BF12A268_BF124FF0_BF11FD61_BF11AABC_BF115800_BF11052E,
  0xBF10B245_BF105F46_BF100C31_BF0FB905_BF0F65C4_BF0F126C_BF0EBEFE_BF0E6B7A]

/-- Words 1664 to 1791. -/
def romRows1664 : List Nat := [
  0xBF0E17E1_BF0DC431_BF0D706B_BF0D1C90_BF0CC89F_BF0C7498_BF0C207B_BF0BCC49,
  0xBF0B7801_BF0B23A4_BF0ACF31_BF0A7AA9_BF0A260B_BF09D159_BF097C90_BF0927B3,
  0xBF08D2C1_BF087DB9_BF08289C_BF07D36B_BF077E24_BF0728C8_BF06D358_BF067DD3,
  0xBF062839_BF05D28A_BF057CC7_BF0526EF_BF04D103_BF047B02_BF0424EC_BF03CEC3,
  0xBF037885_BF032232_BF02CBCC_BF027551_BF021EC2_BF01C81F_BF017168_BF011A9D,
  0xBF00C3BE_BF006CCB_BF0015C5_BEFF7D55_BEFECEF9_BEFE2075_BEFD71CB_BEFCC2F9,
  0xBEFC1400_BEFB64E1_BEFAB59A_BEFA062D_BEF95699_BEF8A6DF_BEF7F6FF_BEF746F8,
  0xBEF696CB_BEF5E678_BEF535FF_BEF48561_BEF3D49C_BEF323B2_BEF272A2_BEF1C16D,
  0xBEF11013_BEF05E94_BEEFACEF_BEEEFB26_BEEE4937_BEED9724_BEECE4EC_BEEC3290,
  0xBEEB800F_BEEACD6A_BEEA1AA0_BEE967B3_BEE8B4A1_BEE8016C_BEE74E13_BEE69A96,
  0xBEE5E6F5_BEE53331_BEE47F4A_BEE3CB3F_BEE31711_BEE262C1_BEE1AE4D_BEE0F9B7,
  0xBEE044FD_BEDF9021_BEDEDB23_BEDE2602_BEDD70BF_BEDCBB5A_BEDC05D3_BEDB502A,
  0xBEDA9A5F_BED9E472_BED92E64_BED87834_BED7C1E3_BED70B70_BED654DD_BED59E28,
  0xBED4E752_BED4305B_BED37944_BED2C20C_BED20AB4_BED1533B_BED09BA2_BECFE3E8,
  0xBECF2C0F_BECE7416_BECDBBFC_BECD03C3_BECC4B6B_BECB92F3_BECADA5B_BECA21A4,
  0xBEC968CE_BEC8AFD9_BEC7F6C5_BEC73D92_BEC68440_BEC5CAD0_BEC51141_BEC45794]

/-- Words 1792 to 1919. -/
def romRows1792 : List Nat := [
  0xBEC39DC8_BEC2E3DF_BEC229D7_BEC16FB1_BEC0B56E_BEBFFB0C_BEBF408E_BEBE85F1,
  0xBEBDCB37_BEBD1060_BEBC556C_BEBB9A5B_BEBADF2C_BEBA23E1_BEB96879_BEB8ACF5,
  0xBEB7F154_BEB73597_BEB679BD_BEB5BDC7_BEB501B6_BEB44588_BEB3893E_BEB2CCD9,
  0xBEB21058_BEB153BC_BEB09705_BEAFDA32_BEAF1D44_BEAE603B_BEADA317_BEACE5D8,
  0xBEAC287F_BEAB6B0B_BEAAAD7C_BEA9EFD3_BEA93211_BEA87433_BEA7B63C_BEA6F82B,
  0xBEA63A01_BEA57BBC_BEA4BD5F_BEA3FEE7_BEA34057_BEA281AD_BEA1C2EA_BEA1040E,
  0xBEA0451A_BE9F860C_BE9EC6E6_BE9E07A8_BE9D4851_BE9C88E2_BE9BC95B_BE9B09BB,
  0xBE9A4A04_BE998A35_BE98CA4E_BE980A50_BE974A3A_BE968A0D_BE95C9C9_BE95096D,
  0xBE9448FB_BE938871_BE92C7D1_BE92071B_BE91464D_BE90856A_BE8FC470_BE8F0360,
  0xBE8E4239_BE8D80FD_BE8CBFAB_BE8BFE43_BE8B3CC6_BE8A7B33_BE89B98B_BE88F7CE,
  0xBE8835FB_BE877414_BE86B217_BE85F006_BE852DE0_BE846BA6_BE83A957_BE82E6F4,
  0xBE82247C_BE8161F1_BE809F51_BE7FB93C_BE7E33AE_BE7CADF9_BE7B281C_BE79A219,
  0xBE781BF0_BE7695A0_BE750F2A_BE73888F_BE7201CE_BE707AE7_BE6EF3DB_BE6D6CAB,
  0xBE6BE556_BE6A5DDC_BE68D63E_BE674E7D_BE65C698_BE643E8F_BE62B663_BE612E14,
  0xBE5FA5A2_BE5E1D0E_BE5C9457_BE5B0B7F_BE598285_BE57F969_BE56702C_BE54E6CD,
  0xBE535D4E_BE51D3AF_BE5049EE_BE4EC00E_BE4D360E_BE4BABEE_BE4A21AF_BE489751]

/-- Words 1920 to 2047. -/
def romRows1920 : List Nat := [
  0xBE470CD3_BE458237_BE43F77D_BE426CA4_BE40E1AD_BE3F5699_BE3DCB67_BE3C4017,
  0xBE3AB4AB_BE392922_BE379D7C_BE3611BA_BE3485DC_BE32F9E2_BE316DCC_BE2FE19B,
  0xBE2E554F_BE2CC8E8_BE2B3C66_BE29AFCA_BE282314_BE269643_BE250959_BE237C56,
  0xBE21EF39_BE206204_BE1ED4B5_BE1D474E_BE1BB9CF_BE1A2C38_BE189E89_BE1710C3,
  0xBE1582E5_BE13F4F0_BE1266E4_BE10D8C2_BE0F4A89_BE0DBC3B_BE0C2DD6_BE0A9F5C,
  0xBE0910CC_BE078227_BE05F36E_BE04649F_BE02D5BC_BE0146C5_BDFF6F75_BDFC5138,
  0xBDF932D4_BDF61449_BDF2F599_BDEFD6C2_BDECB7C7_BDE998A8_BDE67964_BDE359FD,
  0xBDE03A73_BDDD1AC6_BDD9FAF7_BDD6DB06_BDD3BAF4_BDD09AC2_BDCD7A6F_BDCA59FD,
  0xBDC7396C_BDC418BB_BDC0F7ED_BDBDD700_BDBAB5F7_BDB794D0_BDB4738E_BDB1522F,
  0xBDAE30B5_BDAB0F20_BDA7ED71_BDA4CBA8_BDA1A9C5_BD9E87CA_BD9B65B6_BD98438A,
  0xBD952147_BD91FEEC_BD8EDC7B_BD8BB9F4_BD889758_BD8574A6_BD8251E0_BD7E5E0C,
  0xBD781830_BD71D22E_BD6B8C06_BD6545BA_BD5EFF4B_BD58B8BA_BD527207_BD4C2B33,
  0xBD45E440_BD3F9D2F_BD3955FF_BD330EB4_BD2CC74C_BD267FCB_BD20382F_BD19F07B,
  0xBD13A8AE_BD0D60CC_BD0718D3_BD00D0C5_BCF51148_BCE880DF_BCDBF052_BCCF5FA4,
  0xBCC2CED5_BCB63DE9_BCA9ACE0_BC9D1BBD_BC908A82_BC83F931_BC6ECF97_BC55ACA6,
  0xBC3C8995_BC236667_BC0A431F_BBE23F84_BBAFF8A7_BB7B635F_BB16D549_BA491C6B]

/-- Words 0 to 2047. -/
def romFirstHalf : List Word :=
  (romRows0 ++ romRows128 ++ romRows256 ++ romRows384 ++ romRows512 ++ romRows640 ++ romRows768 ++ romRows896 ++
    romRows1024 ++ romRows1152 ++ romRows1280 ++ romRows1408 ++ romRows1536 ++ romRows1664 ++ romRows1792 ++ romRows1920).flatMap romRow

/-- The reference image: word `4095 − i` is word `i` with its sign inverted, for `i` = 1 to 2047, and word
4095 is `+0.0` (R102, R103). -/
def referenceRom : List Word :=
  romFirstHalf ++ (romFirstHalf.drop 1).reverse.map fneg ++ [posZero]

end Sys2Proof.Machine
end

