-- ==== Sys2Proof/Tests/Slice0.lean ====
section
/-! SUPPORT. Named tests. Expected values are the spec's: 95_test_vectors.md under the vector's own name
(V-…, P…, S…), or worked out from the rule a comment cites. Stages that use an elementary function are tested
through their functions with the reference units; vectors marked (ref) there. Then one witness for each
statement that has hypotheses. -/

namespace Sys2Proof.Tests

open Sys2Proof Sys2Proof.Machine

-- One test after the other: checked at the same time they ask for more threads than memory allows.
set_option Elab.async false

/-! ### WellFormed: an ill-formed term for each check -/

theorem test_id_too_large : (Instr.getp 256).wf = false := by decide
theorem test_setp_id_too_large : (Instr.setp 256 0).wf = false := by decide
theorem test_value_too_large : (Instr.setp 0 2147483648).wf = false := by decide
theorem test_value_too_small : (Instr.getstr 0 (-2147483649)).wf = false := by decide
theorem test_bmp_value_too_large : (Instr.getbmp 0 2147483648).wf = false := by decide
theorem test_count_too_large : (Instr.process 0 0 4294967296).wf = false := by decide

/-! ### Decoding (95_test_vectors.md 2.1, P6; 30_encoding.md R54) -/

theorem test_decode_init : decode (.command 0x01FFFFFF_FFFFFFFF_FFFFFFFF_FFFFFFFF#128) = .ok .init := by decide
theorem test_decode_reset : decode (.command 0x02000000_00000000_00000000_00000000#128) = .ok .reset := by decide
theorem test_decode_process :
    decode (.command 0x03000000_FFFFFFFF_00002000_00000001#128) = .ok (.process 0xFFFFFFFF 0x2000 1) := by decide
theorem test_decode_setp :
    decode (.command 0x10030000_00000000_00000000_FFFFFF9C#128) = .ok (.setp 3 (-100)) := by decide
theorem test_decode_getp :
    decode (.command 0x1101FFFF_FFFFFFFF_FFFFFFFF_FFFFFFFF#128) = .ok (.getp 1) := by decide
theorem test_decode_getstr :
    decode (.command 0x12C80000_00000000_00000000_80000000#128) = .ok (.getstr 200 (-2147483648)) := by decide
theorem test_decode_getbmp :
    decode (.command 0x13030000_00000000_00000000_00003039#128) = .ok (.getbmp 3 12345) := by decide
theorem test_decode_reserved : decode (.command 0#128) = .error (.reservedOpcode 0x00) := by decide
theorem test_decode_labels :
    (List.range 16).map (fun l => decodeTableWord 4 l) =
      [none, some .clip, some .bass1, some .bass2, some .high, some .drive, some .comp, some .wshape,
        some .sat, some .luti, none, none, none, none, none, none] := by decide
theorem test_encode_setp :
    encode (.setp 3 (-100)) = .command 0x10030000_00000000_00000000_FFFFFF9C#128 := by decide
theorem test_encode_process :
    encode (.process 0x1000 0x2000 1) = .command 0x03000000_00001000_00002000_00000001#128 := by decide

/-! ### Small states -/

/-- The reset state with the reference ROM image. -/
def base : State := { State.reset with rom := referenceRom }

/-- `base` after a SETP of each pair. -/
def withParams (ps : List (Nat × Int)) : State :=
  { base with par := ps.foldl (fun p x => p.write x.1 x.2) base.par }

/-- The state an outcome goes on with. -/
def after (o : Host.Outcome State Fault Refusal) : State :=
  match o with
  | .next t => t
  | .fault _ => base
  | .refused _ => base

/-- The state one step leads to. -/
def stepped (s : State) : State := after (step s)

/-- `base` with a command word placed on port A. -/
def placed (w : Nat) : State := base.withFetchWord 128 w

/-- `base` with a command word waiting on port C. -/
def waitingC (w : Command) : State := { base with portC := { base.portC with pend := some w } }

/-! ### Commands (95_test_vectors.md 2.1, 2.2) -/

/-- V-ENC-1: INIT clears the filter memory, whatever it held. -/
theorem test_init :
    (after (exec .init { base with fm := ⟨⟨f1, f2⟩, ⟨f1, f2⟩, 1, 2⟩ })).fm = ⟨⟨0, 0⟩, ⟨0, 0⟩, 0, 0⟩ ∧
      (after (exec .init base)).portA.rsp =
        [0x00010000_00000000_00000000_00000000_00000000_00000000#192] := by decide +kernel
/-- V-ENC-13: on port C nothing is cleared. -/
theorem test_init_port_c :
    (after (exec .init { base with fm := ⟨⟨f1, f2⟩, ⟨f1, f2⟩, 1, 2⟩, serving := .C })).fm =
        ⟨⟨f1, f2⟩, ⟨f1, f2⟩, 1, 2⟩ ∧
      (after (exec .init { base with serving := .C })).portC.rsp =
        [0x02010000_00000000_00000000_00000000_00000000_00000000#192] := by decide +kernel
/-- V-ENC-2, V-ENC-14. -/
theorem test_reset :
    (after (exec .reset { base with fm := ⟨⟨f1, f2⟩, ⟨f1, f2⟩, 1, 2⟩ })).fm = ⟨⟨0, 0⟩, ⟨0, 0⟩, 0, 0⟩ ∧
      (after (exec .reset { base with serving := .C })).portC.rsp =
        [0x02020000_00000000_00000000_00000000_00000000_00000000#192] := by decide +kernel
/-- P7: an empty block starts and then ends. -/
theorem test_process_empty :
    (stepped (placed 0x03000000_00005000_00006000_00000000)).seq.busy = true ∧
      (stepped (stepped (placed 0x03000000_00005000_00006000_00000000))).portA.rsp =
        [0x00030000_00000000_00000000_00000000_00000000_00000000#192] := by decide +kernel
/-- P7: the right sample of a block at the last cell is cell 0. -/
theorem test_process_wraps :
    addrIn { base.seq with src := 0xFFFFFFFF, ch := .right } = 0 ∧
      addrOut { base.seq with dst := 0x80, fidx := 1, ch := .right } = 0x83 := by decide +kernel
/-- V-PAR-3, V-PAR-12. -/
theorem test_setp :
    (withParams [(0, 10)]).par.clipping = 0x3DCCCCCD#32 ∧ (withParams [(0, 10)]).par.sclip = 0x3E4CCCCE#32 ∧
      (withParams [(3, -1)]).par.waveshape = 0xBF828F5C#32 ∧
      (withParams [(1, 53), (2, 150), (4, 59), (5, 50)]).par =
        ⟨0, 0, 0x3F07AE14#32, 0x3FC00000#32, 0, 0x3F170A3D#32, 0x3F000000#32⟩ := by decide +kernel
/-- V-ENC-18, V-PAR-24: unused fields and an unknown id. -/
theorem test_setp_word :
    (stepped (placed 0x1001BEEF_DEADBEEF_CAFEF00D_00000046)).par.drive = 0x3F333333#32 ∧
      (stepped (placed 0x10090000_00000000_00000000_0000004D)).par = base.par := by decide +kernel
/-- V-PAR-25, V-PAR-9 to V-PAR-12, V-PAR-26. -/
theorem test_getp :
    [0, 1, 2, 3, 4, 5, 255].map base.par.read = [0, 20, 0, 50, 0, 0, 0] ∧
      (withParams [(1, 53), (2, 150), (4, 59), (3, -1)]).par.read 1 = 52 ∧
      (withParams [(1, 53), (2, 150), (4, 59), (3, -1)]).par.read 2 = 150 ∧
      (withParams [(1, 53), (2, 150), (4, 59), (3, -1)]).par.read 4 = 58 ∧
      (withParams [(1, 53), (2, 150), (4, 59), (3, -1)]).par.read 3 = 0 := by decide +kernel
/-- V-ENC-6, and a negative answer (P6). -/
theorem test_getp_response :
    (stepped (placed 0x11010000_00000000_00000000_00000000)).portA.rsp =
        [0x00110000_00000014_00000000_00000000_00000000_00000000#192] ∧
      (after (exec (.getp 3) (withParams [(3, -100)]))).portA.rsp =
        [0x00110000_FFFFFF9C_00000000_00000000_00000000_00000000#192] := by decide +kernel
/-- V-STR-8, V-STR-1. -/
theorem test_getstr :
    percentString (-2147483648) = [0x2D, 0x32, 0x31, 0x34, 0x37, 0x34, 0x38, 0x33, 0x36, 0x34, 0x38, 0x25] ∧
      percentString 0 = [0x30, 0x25] := by decide +kernel
/-- V-ENC-7, V-STR-4. -/
theorem test_getstr_response :
    (stepped (placed 0x12020000_00000000_00000000_FFFFFFFB)).portA.rsp =
        [0x00120000_00000003_00000000_00000000_00000000_0025352D#192] ∧
      (after (exec (.getstr 0 100) base)).portA.rsp =
        [0x00120000_00000004_00000000_00000000_00000000_25303031#192] := by decide +kernel
/-- GETBMP (2.2). -/
theorem test_getbmp :
    (stepped (placed 0x13030000_00000000_00000000_00003039)).portA.rsp =
      [0x00130000_00000000_00000000_00000000_00000000_00000000#192] := by decide +kernel
/-- V-ENC-11, V-ENC-17: reserved opcodes on either port. -/
theorem test_reserved :
    (stepped (placed 0x04050000_00000001_00000002_00000003)).portA.rsp =
        [0x01040000_00000000_00000000_00000000_00000000_00000000#192] ∧
      (stepped (waitingC 0xFF000000_00000000_00000000_00000000#128)).portC.rsp =
        [0x01FF0000_00000000_00000000_00000000_00000000_00000000#192] := by decide +kernel

/-! ### Arithmetic (95_test_vectors.md 2.3) -/

/-- V-NUM-3 to V-NUM-7, V-NUM-11, V-NUM-12, V-NUM-16. -/
theorem test_arithmetic :
    fadd K0_2 (fmul K0_8 f1) = f1 ∧ fsub f1 (fmul f1 K0_8) = 0x3E4CCCCC#32 ∧
      fmul 0x3C23D70A f20 = 0x3E4CCCCC#32 ∧ fmul (fmul 0x3DCCCCCD 0x3DCCCCCD) f20 = 0x3E4CCCCE#32 ∧
      fmul 0x3F07AE14 f100 = 0x4253FFFF#32 ∧ fsub 0xB089705F fm1 = f1 ∧
      fmul posZero 0xBAC91C67 = negZero ∧ fadd posZero negZero = posZero ∧
      fmul 0x3F7FFFFF f4095 = 0x457FEFFF#32 := by decide +kernel
/-- V-NUM-8, V-NUM-10, V-NUM-9. -/
theorem test_conversions :
    [0x4253FFFF#32, 0xBF7FF972#32, 0x7FC00000#32, 0x4F32D05E#32, 0xCF32D05E#32].map f2i =
        [52, 0, 0, 2147483647, -2147483648] ∧
      [0xB089705F#32, 0x80000000#32, 0x3FA66666#32, 0xC0100000#32].map ffloor =
        [0xBF800000#32, 0x80000000#32, 0x3F800000#32, 0xC0400000#32] ∧
      [0x40066666#32, negInf, negZero, 0x7FC00001#32].map (fun u => clamp u fm1 f1) =
        [f1, fm1, negZero, 0x7FC00001#32] := by decide +kernel

/-! ### Stage operations (95_test_vectors.md 2.4 to 2.11) -/

/-- V-CLIP-2, V-CLIP-7, V-CLIP-11. -/
theorem test_clip :
    (after (exec .clip { withParams [(0, 100)] with acc := 0x3DCCCCCD })).acc = f1 ∧
      (after (exec .clip { withParams [(0, 1)] with acc := 0x3F000000 })).acc = 0x3F004189#32 ∧
      (after (exec .clip { withParams [(0, 100)] with acc := negInf })).acc = fm1 := by decide +kernel
/-- V-CLIP-1: bypass keeps a NaN's payload. -/
theorem test_clip_bypass : (after (exec .clip { base with acc := 0x7FC00001 })).acc = 0x7FC00001#32 := by decide +kernel
/-- V-BASS-3, samples 1 and 2: cell 1 and its output. -/
theorem test_bass1 :
    (after (exec .bass1 { withParams [(4, 50)] with acc := 0x3E4CCCCD })).fm.c1 =
        ⟨0x3E4CCCCD#32, 0x3D75C290#32⟩ ∧
      (after (exec .bass1 { withParams [(4, 50)] with
        acc := 0xBE4CCCCD, fm := { base.fm with c1 := ⟨0x3E4CCCCD, 0x3D75C290⟩ } })).acc =
        0x3D449BA6#32 := by decide +kernel
/-- V-BASS-1: bypass leaves a stale cell alone. -/
theorem test_bass1_bypass :
    (after (exec .bass1 { base with acc := f1, fm := { base.fm with c1 := ⟨f2, f2⟩ } })).fm.c1 = ⟨f2, f2⟩ := by
  decide +kernel
/-- V-BASS-3, samples 2 and 3: cell 2. -/
theorem test_bass2 :
    (after (exec .bass2 { withParams [(4, 50)] with
        acc := 0x3D449BA6, fm := { base.fm with c2 := ⟨0x3DF5C290, 0x3D1374BD⟩ } })).fm.c2 =
        ⟨0x3D449BA6#32, 0x3D84B5DE#32⟩ ∧
      (after (exec .bass2 { withParams [(4, 50)] with
        acc := 0xBDCE703C, fm := { base.fm with c2 := ⟨0x3D449BA6, 0x3D84B5DE⟩ } })).acc =
        0x3CA52694#32 := by decide +kernel
/-- V-HIGH-2 to V-HIGH-6. -/
theorem test_high :
    [0x3E99999A#32, 0x80000000#32, 0x00000001#32, 0x7F800000#32, 0x7FC00001#32].map
        (fun x => (after (exec .high { withParams [(5, 50)] with acc := x })).acc) =
      [0x3E99999A#32, 0x80000000#32, 0x00000001#32, 0x7FC00000#32, 0x7FC00000#32] := by decide +kernel
/-- R93 with a `BT` no run reaches: two passes of `x + x·BT`, `BT` advanced between them. From `x = 1`, `BT = 1`,
`BTINC = 1`: `1 + 1·1 = 2`, then `2 + 2·2 = 6`, and `BT = 3`. -/
theorem test_high_passes :
    (after (exec .high { withParams [(5, 50)] with
        acc := f1, fm := { base.fm with bt := 0x3FF0000000000000, btinc := 0x3FF0000000000000 } })).acc =
        0x40C00000#32 ∧
      (after (exec .high { withParams [(5, 50)] with
        acc := f1, fm := { base.fm with bt := 0x3FF0000000000000, btinc := 0x3FF0000000000000 } })).fm.bt =
        0x4008000000000000#64 := by decide +kernel
/-- V-DRV-4, V-DRV-6 (ref). -/
theorem test_drive :
    driveValue referenceUnits (withParams [(1, 100)]).par 0xBE800000 = 0xBF67B7CC#32 ∧
      driveValue referenceUnits (withParams [(1, 50)]).par 0x3DCCCCCD = 0x3EAC396A#32 := by decide +kernel
/-- V-DRV-1: bypass, on the machine itself. -/
theorem test_drive_bypass :
    (after (exec .drive { withParams [(1, 0)] with acc := 0x7FC00001 })).acc = 0x7FC00001#32 := by decide +kernel
/-- V-COMP-2, V-COMP-4, V-COMP-5, V-COMP-10 (ref). -/
theorem test_comp :
    [0xBF000000#32, 0x40000000#32, posZero, 0x7FC00000#32].map
        (compValue referenceUnits (withParams [(2, 100)]).par) =
      [0xBF5EDC67#32, 0x3F93088C#32, negZero, 0xFFC00000#32] := by decide +kernel
/-- V-WS-3, V-WS-8 (ref). -/
theorem test_wshape :
    wshapeValue referenceUnits (withParams [(3, 100)]).par referenceRom 0xBF800000 = 0xC02BB552#32 ∧
      wshapeValue referenceUnits (withParams [(3, -100)]).par referenceRom 0x3E99999A = 0xC023671E#32 := by
  decide +kernel
/-- V-WS-6 (ref): the negative arm, on the machine itself. -/
theorem test_wshape_negative_arm :
    (after (exec .wshape { withParams [(3, 0)] with acc := 0xBE800000 })).acc = 0x3F3FFFFC#32 := by
  decide +kernel
/-- V-SAT-6, V-SAT-7, V-SAT-1 (ref). -/
theorem test_sat :
    [0x41102CB3#32, 0x41102CB4#32, 0x3F000000#32].map (satValue referenceUnits) =
      [0x3F7FFFFF#32, 0x3F800000#32, 0x3EEC9A9F#32] := by decide +kernel
/-- V-LUTI-7, V-LUTI-11, V-LUTI-15 (ref). -/
theorem test_luti :
    [0x3FA66666#32, 0xC0100000#32, 0x00000001#32].map (lutiValue referenceRom) =
      [0xBF73786E#32, 0x3F7FFFFC#32, 0x80000006#32] := by decide +kernel
/-- V-LUTI-9, V-LUTI-12, V-LUTI-17 (ref), on the machine itself: the wrap case, the last interval, infinity. -/
theorem test_luti_wrap :
    [0xB089705F#32, 0x3F7FFFFF#32, negInf].map (fun x => (after (exec .luti { base with acc := x })).acc) =
      [posZero, 0x34C91C67#32, QNAN32] := by decide +kernel
/-- The check words of the reference ROM image (2.10). -/
theorem test_reference_rom :
    referenceRom.length = 4096 ∧
      [1, 512, 1023, 1228, 2047, 2048, 2200, 3071, 4088, 4095].map (romWord referenceRom) =
        [0xBAC91C67#32, 0xBF350DD6#32, 0xBF7FFFF5#32, 0xBF7387F5#32, 0xBA491C6B#32, 0x3A491C6B#32,
          0x3E6D6CAB#32, 0x3F7FFFFF#32, 0x3C2FF801#32, 0x00000000#32] := by decide +kernel

/-! ### The whole pipeline and the memory -/

/-- V-PIPE-1, left sample (ref): every stage active. -/
theorem test_pipeline_left :
    (processSample referenceUnits
        { withParams [(0, 30), (1, 60), (2, 40), (3, 20), (4, 70), (5, 50)] with acc := 0x3ECCCCCD }).acc =
      0x3F437CDC#32 := by decide +kernel
/-- V-PIPE-1, right sample (ref), from the filter memory the left one leaves. -/
theorem test_pipeline_right :
    (processSample referenceUnits
        { withParams [(0, 30), (1, 60), (2, 40), (3, 20), (4, 70), (5, 50)] with
          acc := 0xBECCCCCD
          fm := { base.fm with
            c1 := ⟨0x3F800000, 0x3EC28F5C⟩, c2 := ⟨0x3F6978D5, 0x3EB17050⟩ } }).acc =
      0x3F42FD51#32 := by decide +kernel
/-- 20_memory.md R30: least significant byte first; storing zeros unlists the bytes. -/
theorem test_memory :
    memWrite [] 1 0x44332211 = [(4, 0x11#8), (5, 0x22#8), (6, 0x33#8), (7, 0x44#8)] ∧
      memRead [(4, 0x11#8), (5, 0x22#8), (6, 0x33#8), (7, 0x44#8)] 1 = 0x44332211#32 ∧
      memWrite [(4, 0x11#8), (5, 0x22#8), (6, 0x33#8), (7, 0x44#8)] 1 0 = [] := by decide +kernel
/-- A platform event and a hardware reset land between steps (20_memory.md R36; 70_reset_and_hazards.md R122). -/
theorem test_platform_events :
    memRead (stepped { base with platform := [.store 7 0x3F000000] }).mem 7 = 0x3F000000#32 ∧
      (stepped { withParams [(1, 70)] with platform := [.hardwareReset] }).par = Params.reset := by decide +kernel

/-! ### Witnesses: for each statement with hypotheses, states and operands that meet them together. Where a
statement has several clauses, one for each, at a boundary of its range. -/

/-- DecodeEncodeAgree, ProcessStarts, GetstrFormatsPercent. -/
theorem witness_wellFormed :
    (Instr.setp 255 (-2147483648)).wf = true ∧ (Instr.getstr 0 2147483647).wf = true ∧
      (Instr.process 0xFFFFFFFF 0 4294967295).wf = true ∧ Instr.luti.wf = true := by decide

/-- OpcodeSelectsCommand, ReservedOpcodeIsAnswered: each opcode, and the reserved ones beside them. -/
theorem witness_opcodes :
    (0x01FFFFFF_FFFFFFFF_FFFFFFFF_FFFFFFFF#128).extractLsb' 120 8 = 0x01#8 ∧
      (0x02000000_00000000_00000000_00000000#128).extractLsb' 120 8 = 0x02#8 ∧
      (0x03000000_00001000_00002000_00000001#128).extractLsb' 120 8 = 0x03#8 ∧
      (0x10030000_00000000_00000000_FFFFFF9C#128).extractLsb' 120 8 = 0x10#8 ∧
      (0x11010000_00000000_00000000_00000000#128).extractLsb' 120 8 = 0x11#8 ∧
      (0x12010000_00000000_00000000_00000035#128).extractLsb' 120 8 = 0x12#8 ∧
      (0x13010000_00000000_00000000_00000035#128).extractLsb' 120 8 = 0x13#8 ∧
      ∀ op ∈ [0x00#8, 0x04#8, 0x0F#8, 0x14#8, 0xFF#8],
        op ∉ [0x01#8, 0x02#8, 0x03#8, 0x10#8, 0x11#8, 0x12#8, 0x13#8] := by decide

/-- UnusedFieldsAreNotDecoded, its clause about the encoder: one word for each format. -/
theorem witness_encoded :
    encode .init = .command 0x01000000_00000000_00000000_00000000#128 ∧
      encode (.process 0xFFFFFFFF 0xFFFFFFFF 4294967295) =
        .command 0x03000000_FFFFFFFF_FFFFFFFF_FFFFFFFF#128 ∧
      encode (.getbmp 255 (-1)) = .command 0x13FF0000_00000000_00000000_FFFFFFFF#128 ∧
      encode (.getp 255) = .command 0x11FF0000_00000000_00000000_00000000#128 := by decide

/-- DecodedOperationsAreWellFormed, PlacedCommandRunsNext. -/
theorem witness_decoded :
    decode (.command 0x12FF0000_00000000_00000000_80000000#128) = .ok (.getstr 255 (-2147483648)) ∧
      decode (.label 9#4) = .ok .luti ∧
      decodeTableWord 128 0x03000000_00000000_00000000_FFFFFFFF = some (.process 0 0 4294967295) := by decide

/-- A GETP waiting on port A. -/
def getpA : State := placed 0x11010000_00000000_00000000_00000000

/-- StepRunsDecodedCommand, for each port. -/
theorem witness_waiting_command :
    (onlyAEnabled getpA ∧ getpA.seq.busy = false ∧
      getpA.portA.pend = some 0x11010000_00000000_00000000_00000000#128) ∧
    (onlyCEnabled (waitingC 0x11010000_00000000_00000000_00000000#128) ∧
      (waitingC 0x11010000_00000000_00000000_00000000#128).portC.pend =
        some 0x11010000_00000000_00000000_00000000#128) ∧
    decode (.command 0x11010000_00000000_00000000_00000000#128) = .ok (.getp 1) :=
  ⟨⟨⟨rfl, rfl, rfl⟩, rfl, rfl⟩, ⟨⟨rfl, rfl, rfl, rfl⟩, rfl⟩, by decide⟩

/-- ReservedOpcodeIsAnswered, for each port (the opcodes are in `witness_opcodes`). -/
theorem witness_waiting_reserved :
    (onlyAEnabled (placed 0) ∧ (placed 0).seq.busy = false ∧ (placed 0).portA.pend = some 0#128) ∧
    (onlyCEnabled (waitingC 0#128) ∧ (waitingC 0#128).portC.pend = some 0#128) :=
  ⟨⟨⟨rfl, rfl, rfl⟩, rfl, rfl⟩, ⟨rfl, rfl, rfl, rfl⟩, rfl⟩

/-- EveryStepIsAnEnabledOne, RomIsConstant, SampleStepStoresOneCell, InvariantKeptByEveryStep: an idle step, a
command, a sample step. -/
theorem witness_steps :
    step base = .next base ∧ step getpA = .next (stepped getpA) ∧
      step (base.withFetchWord 4 1) = .next (stepped (base.withFetchWord 4 1)) := ⟨rfl, rfl, rfl⟩

/-- InitClearsFilterMemory, ResetClearsFilterMemory, ProcessStarts: each port. -/
theorem witness_serving : base.serving = .A ∧ { base with serving := .C }.serving = .C := ⟨rfl, rfl⟩

/-- A sample step of a one-frame PROCESS. -/
def sampling : State := base.withFetchWord 4 1

/-- SampleStepRunsStagesInOrder, SampleStepStoresOneCell. -/
theorem witness_sample_step :
    sampling.par.inRange = true ∧ onlyAEnabled sampling ∧ sampling.seq.busy = true ∧
      sampling.seq.fidx ≠ sampling.seq.fcnt ∧ sampling.portA.pend ≠ none ∧ sampling.mem.wf :=
  ⟨by decide +kernel, ⟨rfl, rfl, rfl⟩, rfl, by decide, by decide, List.Pairwise.nil, fun _ h => nomatch h⟩

/-- ProcessEnds. -/
theorem witness_process_end :
    onlyAEnabled { sampling with seq := { sampling.seq with fidx := 1 } } ∧
      { sampling with seq := { sampling.seq with fidx := 1 } }.seq.busy = true ∧
      { sampling with seq := { sampling.seq with fidx := 1 } }.seq.fidx =
        { sampling with seq := { sampling.seq with fidx := 1 } }.seq.fcnt ∧
      { sampling with seq := { sampling.seq with fidx := 1 } }.portA.pend ≠ none :=
  ⟨⟨rfl, rfl, rfl⟩, rfl, rfl, by decide⟩

/-- ProcessRunsToCompletion: an empty block and the longest one. -/
theorem witness_process_waiting :
    (onlyAEnabled (placed 0x03000000_00005000_00006000_00000000) ∧
      (placed 0x03000000_00005000_00006000_00000000).portA.host = [] ∧
      (placed 0x03000000_00005000_00006000_00000000).seq.busy = false ∧
      (placed 0x03000000_00005000_00006000_00000000).portA.pend =
        some 0x03000000_00005000_00006000_00000000#128) ∧
    decode (.command 0x03000000_00005000_00006000_00000000#128) = .ok (.process 0x5000 0x6000 0) ∧
    decode (.command 0x03000000_00005000_00006000_FFFFFFFF#128) =
      .ok (.process 0x5000 0x6000 4294967295) :=
  ⟨⟨⟨rfl, rfl, rfl⟩, rfl, rfl, rfl⟩, by decide, by decide⟩

/-- GetpAfterSetpRoundTrip, RangesKeptByDeclaredValues: the ends of the declared domains. -/
theorem witness_setp :
    base.par.inRange = true ∧ exec (.setp 0 100) base = .next (after (exec (.setp 0 100) base)) ∧
      exec (.setp 5 0) base = .next (after (exec (.setp 5 0) base)) ∧
      exec (.setp 3 (-100)) base = .next (after (exec (.setp 3 (-100)) base)) ∧
      exec (.setp 3 100) base = .next (after (exec (.setp 3 100) base)) :=
  ⟨by decide +kernel, rfl, rfl, rfl, rfl⟩

/-- ClipStage, Bass1Stage, Bass2Stage, HighStage, DriveStage, CompStage, WshapeStage,
OutputBound: registers in range, each control at zero, at its least and at its greatest value. -/
theorem witness_in_range :
    (withParams [(1, 0)]).par.inRange = true ∧ feq0 (withParams [(1, 0)]).par.bass = true ∧
      feq0 (withParams [(1, 0)]).par.high = true ∧
    (withParams [(0, 1), (1, 1), (2, 1), (3, -100), (4, 1), (5, 1)]).par.inRange = true ∧
      feq0 (withParams [(0, 1), (1, 1), (2, 1), (3, -100), (4, 1), (5, 1)]).par.bass = false ∧
      feq0 (withParams [(0, 1), (1, 1), (2, 1), (3, -100), (4, 1), (5, 1)]).par.high = false ∧
    (withParams [(0, 100), (1, 100), (2, 100), (3, 100), (4, 100), (5, 100)]).par.inRange = true := by
  decide +kernel

/-- HighIsInert: finite and not. -/
theorem witness_high_inert :
    base.fm.bt = 0#64 ∧ base.fm.btinc = 0#64 ∧ feq0 (withParams [(5, 1)]).par.high = false ∧
      (withParams [(5, 1)]).fm.bt = 0#64 ∧ (withParams [(5, 1)]).fm.btinc = 0#64 ∧
      isFinite 0x7F7FFFFF = true ∧ isFinite posInf = false ∧ isFinite QNAN32 = false := by decide +kernel

/-- CompressionKeepsSign, CompressedSilenceIsNegativeZero: both ends of the control, the least and the greatest
samples, both zeros. -/
theorem witness_compression :
    (withParams [(2, 1)]).par.compress = fdiv (i2f 1) 0x42C80000#32 ∧
      (withParams [(2, 100)]).par.compress = fdiv (i2f 100) 0x42C80000#32 ∧
      isFinite 0x00000001 = true ∧ feq0 0x00000001 = false ∧
      isFinite 0xFF7FFFFF = true ∧ feq0 0xFF7FFFFF = false ∧
      feq0 posZero = true ∧ feq0 negZero = true := by decide +kernel

/-- LutiLooksUp: the ROM's length, and both kinds of operand. -/
theorem witness_rom_length :
    base.rom.length = 4096 ∧ isFinite 0xB089705F = true ∧ isFinite negInf = false := by decide +kernel

/-- LutiIndicesStayInRom: the least negative operand, which meets the clause about index 4095. -/
theorem witness_luti_wrap :
    isFinite 0x80000001 = true ∧
      f2i (fmul (fsub 0x80000001 (ffloor 0x80000001)) 0x457FF000#32) = 4095 := by decide +kernel

/-- LutiIsPeriodic: V-LUTI-11, `−2.25 = 0.75 − 3`. -/
theorem witness_luti_period :
    isFinite 0x3F400000 = true ∧ isFinite 0xC0100000 = true ∧
      fvalue 0xC0100000 = fvalue 0x3F400000 + ((-3 : Int) : ℚ) := by decide +kernel

/-- SampleDependsOnlyOnItsInputs: two different states that agree on the inputs. -/
theorem witness_same_inputs :
    base.par = { base with mem := memWrite [] 1 f1, turn := 1 }.par ∧
      base.fm = { base with mem := memWrite [] 1 f1, turn := 1 }.fm ∧
      base.rom = { base with mem := memWrite [] 1 f1, turn := 1 }.rom ∧
      base.acc = { base with mem := memWrite [] 1 f1, turn := 1 }.acc ∧
      base.mem ≠ { base with mem := memWrite [] 1 f1, turn := 1 }.mem :=
  ⟨rfl, rfl, rfl, rfl, by decide⟩

/-- ArithmeticIsCorrectlyRounded: below the overflow bound and from it on, for each operation. -/
theorem witness_rounding :
    isFinite 0x7F7FFFFF = true ∧ isFinite f1 = true ∧ isFinite 0x00000001 = true ∧ feq0 0x00000001 = false ∧
      |fvalue f1 + fvalue 0x00000001| < overflowBound ∧
      overflowBound ≤ |fvalue 0x7F7FFFFF + fvalue 0x7F7FFFFF| ∧
      overflowBound ≤ |fvalue 0xFF7FFFFF - fvalue 0x7F7FFFFF| ∧
      overflowBound ≤ |fvalue 0x7F7FFFFF * fvalue 0xFF7FFFFF| ∧
      overflowBound ≤ |fvalue 0x7F7FFFFF / fvalue 0x00000001| := by decide +kernel

/-- ArithmeticSpecialCases, clause by clause. -/
theorem witness_special_cases :
    isNaN 0x7F800001 = true ∧ (isInf posInf = true ∧ isInf negInf = true) ∧ isFinite negZero = true ∧
      fvalue negZero + fvalue negZero = 0 ∧ fvalue f1 + fvalue fm1 = 0 ∧ fvalue f1 - fvalue f1 = 0 ∧
      feq0 (fmul 0x80000001 f1) = false ∧ feq0 (fmul 0x80000001 0x00000001) = true ∧
      feq0 (fdiv 0x80000001 0x7F7FFFFF) = true ∧ feq0 negZero = true := by decide +kernel

/-- NaNResultsAreCanonical: operations that do give a NaN. -/
theorem witness_nan_results :
    isNaN (fadd posInf negInf) = true ∧ isNaN (fsub posInf posInf) = true ∧
      isNaN (fmul posZero posInf) = true ∧ isNaN (fdiv posZero posZero) = true ∧
      isNaN (ffloor 0x7F800001) = true ∧ isNaN (d2f 0x7FF0000000000001) = true ∧
      nanPat binary64 (dmul posZero64 0x7FF0000000000000).toNat = true ∧
      isNaN (lutiValue referenceRom posInf) = true := by decide +kernel

/-- IntegerConversions and FloorIsGreatestIntegerBelow, clause by clause. -/
theorem witness_conversions :
    |((16777216 : Int))| ≤ 2 ^ 24 ∧ isNaN 0x7F800001 = true ∧ isInf negInf = true ∧
      isFinite 0xCF000000 = true ∧ fvalue 0xCF000000 = -2147483648 ∧ feq0 negZero = true ∧
      2 ^ 23 ≤ |fvalue 0x4B000000| ∧ -1 < fvalue 0x80000001 ∧ fvalue 0x80000001 < 0 := by decide +kernel

/-- HardwareResetEvent: the only thing enabled. -/
theorem witness_hardware_reset :
    { base with platform := [.hardwareReset] }.platform = .hardwareReset :: [] ∧
      base.seq.busy = false ∧ base.portA.pend = none ∧ base.portA.host = [] ∧ base.portC.pend = none ∧
      base.portC.host = [] := ⟨rfl, rfl, rfl, rfl, rfl, rfl⟩

/-- `State.reset` in the middle of a one-frame PROCESS. -/
def running : State := State.reset.withFetchWord 4 1

/-- InvariantKeptByEveryStep, OneResponsePerCommand: a state with the invariants that does take a step. -/
theorem witness_invariant : MachineInv running ∧ running.busyOk ∧ step running = .next (stepped running) := by
  have hb : running.busyOk := fun _ =>
    ⟨commandWord opProcess 0 0 0 1, 0, 0, 1, rfl, by decide, rfl, rfl, rfl, by decide, fun _ => rfl⟩
  refine ⟨⟨by decide +kernel, ⟨rfl, rfl⟩, by unfold Params.finite; decide +kernel, hb, rfl,
    .inl (by decide), List.Pairwise.nil, fun _ h => nomatch h⟩, hb, rfl⟩

/-- ParametersWrittenOnlyBySetp: a step that does change a parameter register. -/
theorem witness_parameter_change :
    step (placed 0x10010000_00000000_00000000_00000046) =
        .next (stepped (placed 0x10010000_00000000_00000000_00000046)) ∧
      (stepped (placed 0x10010000_00000000_00000000_00000046)).par ≠
        (placed 0x10010000_00000000_00000000_00000046).par := ⟨rfl, by decide +kernel⟩

/-- FilterMemoryWrittenOnlyFromPortA: an INIT that does clear something. -/
theorem witness_filter_change :
    step { placed 0x01000000_00000000_00000000_00000000 with fm := ⟨⟨f1, f1⟩, ⟨f1, f1⟩, 0, 0⟩ } =
        .next (stepped
          { placed 0x01000000_00000000_00000000_00000000 with fm := ⟨⟨f1, f1⟩, ⟨f1, f1⟩, 0, 0⟩ }) ∧
      (stepped { placed 0x01000000_00000000_00000000_00000000 with
        fm := ⟨⟨f1, f1⟩, ⟨f1, f1⟩, 0, 0⟩ }).fm ≠ ⟨⟨f1, f1⟩, ⟨f1, f1⟩, 0, 0⟩ := ⟨rfl, by decide +kernel⟩

/-- MemoryWrittenOnlyBySampleSteps: a platform write that does change a cell. -/
theorem witness_memory_change :
    step { base with platform := [.store 7 f1] } = .next (stepped { base with platform := [.store 7 f1] }) ∧
      (stepped { base with platform := [.store 7 f1] }).mem ≠ base.mem := ⟨rfl, by decide +kernel⟩

/-- StringBufferWrittenOnlyByGetstr: a GETSTR that does change the buffer. -/
theorem witness_string_change :
    step (placed 0x12010000_00000000_00000000_00000035) =
        .next (stepped (placed 0x12010000_00000000_00000000_00000035)) ∧
      (stepped (placed 0x12010000_00000000_00000000_00000035)).strbuf ≠ base.strbuf :=
  ⟨rfl, by decide +kernel⟩

/-- PortCIsEventuallyAnswered, PortCCommandsLeaveAudioStateAlone: a reserved word waiting on port C while a PROCESS
runs on port A (other reserved opcodes are in `witness_opcodes`). -/
theorem witness_port_c_waiting :
    { sampling with portC := { sampling.portC with pend := some 0#128 } }.portC.pend = some 0#128 ∧
      { sampling with portC := { sampling.portC with pend := some 0#128 } }.platform = [] ∧
      { sampling with portC := { sampling.portC with pend := some 0#128 } }.seq.busy = true :=
  ⟨rfl, rfl, rfl⟩

end Sys2Proof.Tests
end

section
/-! PROOFS. The kinds of step with named constructors, and what a step may write (10_state.md section 8). -/

namespace Sys2Proof.Machine

/-! ### The kinds of step -/

/-- What a step from `s` can be (60_exceptions.md R111, 10_state.md R22). `n` is the arbiter's turn, which a
contested choice moves on; nothing else of `s` has changed when the action starts. -/
inductive StepKind (s : State) : State → Prop
  | idle : StepKind s s
  | serve {n : Nat} {p : Port} {w : Command} {t : State} :
      (s.port p).pend = some w → (p = .A → s.seq.busy = false) →
      serveCommand p w (s.setTurn n) = .next t → StepKind s t
  | sample {n : Nat} {t : State} :
      s.seq.busy = true → s.seq.fidx ≠ s.seq.fcnt → sampleStep (s.setTurn n) = .next t → StepKind s t
  | finish {n : Nat} :
      s.seq.busy = true → s.seq.fidx = s.seq.fcnt → StepKind s (endProcess (s.setTurn n))
  | present {n : Nat} {p : Port} {w : Command} {ws : List Command} :
      (s.port p).pend = none → (s.port p).host = w :: ws →
      StepKind s ((s.setTurn n).setPort p { (s.port p) with pend := some w, host := ws })
  | store {n : Nat} {a : CellAddr} {v : Word} {es : List PlatformEvent} :
      s.platform = .store a v :: es →
      StepKind s (((s.setTurn n).setMem (memWrite s.mem a v)).setPlatform es)
  | reset {n : Nat} {es : List PlatformEvent} :
      s.platform = .hardwareReset :: es → StepKind s ((hardwareReset (s.setTurn n)).setPlatform es)

theorem stepKind_of_step {s t : State} (h : step s = .next t) : StepKind s t := by
  rcases step_kinds h with rfl | ⟨s', hs, hkind⟩
  · exact .idle
  obtain ⟨n, rfl⟩ : ∃ n, s' = s.setTurn n := by
    rcases hs with rfl | rfl
    · exact ⟨s'.turn, rfl⟩
    · exact ⟨s.turn + 1, rfl⟩
  rcases hkind with ⟨w, hw, ht⟩ | ⟨w, hb, hw, ht⟩ | ⟨hb, hf, ht⟩ | ⟨hb, hf, rfl⟩ | ⟨w, ws, hp, hh, rfl⟩ |
    ⟨w, ws, hp, hh, rfl⟩ | ⟨a, v, es, he, rfl⟩ | ⟨es, he, rfl⟩
  · exact .serve (p := .C) hw (by simp) ht
  · exact .serve (p := .A) hw (fun _ => hb) ht
  · exact .sample hb hf ht
  · exact .finish hb hf
  · exact .present (p := .A) hp hh
  · exact .present (p := .C) hp hh
  · exact .store he
  · exact .reset he

/-! ### What a command may write -/

/-- `t` agrees with `s` on everything a command on a port never writes, and writes the parameter registers,
the string buffer or the filter memory only where its opcode allows (10_state.md R25). -/
structure CommandWrites (p : Port) (w : Command) (s t : State) : Prop where
  par : t.par = s.par ∨ opField w = opSetp
  strbuf : t.strbuf = s.strbuf ∨ opField w = opGetstr
  fm : t.fm = s.fm ∨ p = .A ∧ (opField w = opInit ∨ opField w = opReset)
  mem : t.mem = s.mem
  rom : t.rom = s.rom

theorem serveCommand_writes {p : Port} {w : Command} {s t : State} (h : serveCommand p w s = .next t) :
    CommandWrites p w s t := by
  rcases serveCommand_cases p w s with ⟨status, value, str, e⟩ | ⟨hop, id, v, -, e⟩ |
    ⟨hop, id, v, -, e⟩ | ⟨hA, hop, e⟩ | ⟨hA, src, dst, n, -, e⟩ <;>
    obtain rfl := Host.Outcome.next.inj (e.symm.trans h)
  case inl => constructor <;> simp
  case inr.inl => constructor <;> simp [hop]
  case inr.inr.inl => constructor <;> simp [hop]
  case inr.inr.inr.inl => constructor <;> simp [hA, hop]
  case inr.inr.inr.inr => constructor <;> simp [startProcess]

/-! ### What a step may write -/

/-- The platform's next event is a hardware reset. -/
def State.resetIsNext (s : State) : Prop := ∃ es, s.platform = .hardwareReset :: es

/-- A command word with this opcode waits on one of the ports. -/
def State.opWaiting (s : State) (op : Byte) : Prop :=
  ∃ w, (s.portA.pend = some w ∨ s.portC.pend = some w) ∧ opField w = op

/-- A PROCESS runs and has a sample left to do. -/
def State.sampleIsNext (s : State) : Prop := s.seq.busy = true ∧ s.seq.fidx ≠ s.seq.fcnt

/-- Who may write each part of the state in a step from `s` to `t` (10_state.md R25). -/
structure StepWrites (s t : State) : Prop where
  par : t.par = s.par ∨ s.resetIsNext ∨ s.opWaiting opSetp
  fm : t.fm = s.fm ∨ s.resetIsNext ∨
    (s.seq.busy = false ∧ ∃ w, s.portA.pend = some w ∧ (opField w = opInit ∨ opField w = opReset)) ∨
    s.sampleIsNext
  mem : t.mem = s.mem ∨ (∃ a v es, s.platform = .store a v :: es) ∨ s.sampleIsNext
  strbuf : t.strbuf = s.strbuf ∨ s.resetIsNext ∨ s.opWaiting opGetstr
  rom : t.rom = s.rom

/-- A step that keeps all five parts. -/
theorem StepWrites.of_eq {s t : State} (hpar : t.par = s.par) (hfm : t.fm = s.fm) (hmem : t.mem = s.mem)
    (hstr : t.strbuf = s.strbuf) (hrom : t.rom = s.rom) : StepWrites s t :=
  ⟨.inl hpar, .inl hfm, .inl hmem, .inl hstr, hrom⟩

theorem opWaiting_of_pend {s : State} {p : Port} {w : Command} {op : Byte} (hw : (s.port p).pend = some w)
    (hop : opField w = op) : s.opWaiting op := by
  cases p
  · exact ⟨w, .inl hw, hop⟩
  · exact ⟨w, .inr hw, hop⟩

theorem CommandWrites.stepWrites {p : Port} {w : Command} {n : Nat} {s t : State}
    (h : CommandWrites p w (s.setTurn n) t) (hw : (s.port p).pend = some w)
    (hA : p = .A → s.seq.busy = false) : StepWrites s t where
  par := h.par.imp_right fun hop => .inr (opWaiting_of_pend hw hop)
  fm := h.fm.imp_right fun ⟨hp, hop⟩ => by subst hp; exact .inr (.inl ⟨hA rfl, w, hw, hop⟩)
  mem := .inl h.mem
  strbuf := h.strbuf.imp_right fun hop => .inr (opWaiting_of_pend hw hop)
  rom := h.rom

theorem step_writes {s t : State} (h : step s = .next t) : StepWrites s t := by
  cases stepKind_of_step h with
  | idle => exact .of_eq rfl rfl rfl rfl rfl
  | serve hw hA ht => exact (serveCommand_writes ht).stepWrites hw hA
  | sample hb hf ht =>
    rw [sampleStep_eq] at ht
    cases ht
    exact ⟨.inl rfl, .inr (.inr (.inr ⟨hb, hf⟩)), .inr (.inr ⟨hb, hf⟩), .inl rfl, rfl⟩
  | finish hb hf => apply StepWrites.of_eq <;> simp [endProcess, respondOk, respond_eq]
  | present hp hh => apply StepWrites.of_eq <;> simp
  | store he => exact ⟨.inl rfl, .inl rfl, .inr (.inl ⟨_, _, _, he⟩), .inl rfl, rfl⟩
  | reset he => exact ⟨.inr (.inl ⟨_, he⟩), .inr (.inl ⟨_, he⟩), .inl rfl, .inr (.inl ⟨_, he⟩), rfl⟩

/-- Settles O52: serving a SETP word and a hardware reset are the only writers. -/
theorem parametersWrittenOnlyBySetp : Obligations.ParametersWrittenOnlyBySetp :=
  fun _ _ h hne => (step_writes h).par.resolve_left hne

/-- Settles O53: serving INIT or RESET on port A, a sample step and a hardware reset are the only writers. -/
theorem filterMemoryWrittenOnlyFromPortA : Obligations.FilterMemoryWrittenOnlyFromPortA :=
  fun _ _ h hne => (step_writes h).fm.resolve_left hne

/-- Settles O54: no command writes the sample memory. -/
theorem memoryWrittenOnlyBySampleSteps : Obligations.MemoryWrittenOnlyBySampleSteps :=
  fun _ _ h hne => (step_writes h).mem.resolve_left hne

/-- Settles O55: serving a GETSTR word and a hardware reset are the only writers. -/
theorem stringBufferWrittenOnlyByGetstr : Obligations.StringBufferWrittenOnlyByGetstr :=
  fun _ _ h hne => (step_writes h).strbuf.resolve_left hne

/-- Settles O56: no kind of step writes the ROM. -/
theorem romIsConstant : Obligations.RomIsConstant := fun _ _ h => (step_writes h).rom

/-! ### Responses -/

theorem responseWord_opecho (status op : Byte) (value : BitVec 32) (str : BitVec 128) :
    (responseWord status op value str).extractLsb' 176 8 = op := by
  apply BitVec.eq_of_getLsbD_eq; intro i hi
  have e : 176 + i - 128 - 32 - 16 = i := by omega
  simp only [responseWord, BitVec.getLsbD_extractLsb', BitVec.getLsbD_append, hi, decide_true,
    Bool.true_and]
  rw [if_neg (by omega), if_neg (by omega), if_neg (by omega), if_pos (by omega), e]

theorem answered_port_serving (s : State) (r : ResponseWord) :
    (answered s r).port s.serving =
      { (s.port s.serving) with pend := none, rsp := (s.port s.serving).rsp ++ [r] } := by
  unfold answered; cases s.serving <;> rfl

theorem answered_port_ne {s : State} {p : Port} (hp : p ≠ s.serving) (r : ResponseWord) :
    (answered s r).port p = s.port p := by
  unfold answered
  cases hs : s.serving <;> cases p
  · exact absurd hs.symm hp
  · rfl
  · rfl
  · exact absurd hs.symm hp

/-- The word of a running PROCESS has its opcode. -/
theorem opField_of_decode_process {w : Command} {src dst : CellAddr} {n : Nat}
    (h : decodeCommand w = .ok (.process src dst n)) : opField w = opProcess := by
  by_contra hne
  simp only [decodeCommand, hne, if_false] at h
  split_ifs at h <;> cases h

/-- What a step does to one port (10_state.md R22, 60_exceptions.md R110): it issues no response there, or it
answers the waiting command. -/
inductive PortEffect (s t : State) (p : Port) : Prop
  | unchanged : t.port p = s.port p → PortEffect s t p
  | presented : (s.port p).pend = none → (t.port p).rsp = (s.port p).rsp → PortEffect s t p
  | reset : (t.port p).pend = none → (t.port p).rsp = (s.port p).rsp → s.resetIsNext → PortEffect s t p
  | answered (w : Command) (r : ResponseWord) : (t.port p).pend = none → (s.port p).pend = some w →
      (t.port p).rsp = (s.port p).rsp ++ [r] → r.extractLsb' 176 8 = opField w → PortEffect s t p

/-- Answering the command of one port: that port gets the response, the other is left alone. -/
theorem portEffect_answered {s u : State} {w : Command} {r : ResponseWord} (hport : u.port = s.port)
    (hw : (s.port u.serving).pend = some w) (hr : r.extractLsb' 176 8 = opField w) (p : Port) :
    PortEffect s (answered u r) p := by
  by_cases hp : p = u.serving
  · subst hp
    exact .answered w r (by rw [answered_port_serving]) hw (by rw [answered_port_serving, hport]) hr
  · exact .unchanged (by rw [answered_port_ne hp, hport])

theorem portEffect_serveCommand {s t : State} {q : Port} {w : Command} {n : Nat}
    (hw : (s.port q).pend = some w) (ht : serveCommand q w (s.setTurn n) = .next t) (p : Port) :
    PortEffect s t p := by
  rcases serveCommand_cases q w (s.setTurn n) with ⟨status, value, str, e⟩ | ⟨-, id, v, -, e⟩ |
    ⟨-, id, v, -, e⟩ | ⟨-, -, e⟩ | ⟨-, src, dst, m, -, e⟩ <;>
    obtain rfl := Host.Outcome.next.inj (e.symm.trans ht)
  case inr.inr.inr.inr => exact .unchanged (by cases p <;> rfl)
  all_goals exact portEffect_answered (funext fun p => by cases p <;> rfl) hw (responseWord_opecho ..) p

theorem portEffect_of_step {s t : State} (hbusy : s.busyOk) (h : step s = .next t) (p : Port) :
    PortEffect s t p := by
  cases stepKind_of_step h with
  | idle => exact .unchanged rfl
  | serve hw hA ht => exact portEffect_serveCommand hw ht p
  | sample hb hf ht =>
    rw [sampleStep_eq] at ht
    cases ht
    exact .unchanged (by cases p <;> rfl)
  | finish hb hf =>
    obtain ⟨w, src, dst, m, hw, hdec, -⟩ := hbusy hb
    rw [endProcess, respondOk, respond_eq]
    refine portEffect_answered (u := ((s.setTurn _).setSeq _).setServing .A)
      (funext fun p => by cases p <;> rfl) hw ?_ p
    rw [responseWord_opecho, opField_of_decode_process hdec]
  | @present n q w ws hp hh =>
    by_cases hq : q = p
    · subst hq; exact .presented hp (by simp)
    · exact .unchanged (by rw [State.setPort_port_ne _ _ hq, State.setTurn_port])
  | store he => exact .unchanged (by cases p <;> rfl)
  | reset he => exact .reset (by cases p <;> rfl) (by cases p <;> rfl) ⟨_, he⟩

/-- Settles O57: the cases of `portEffect_of_step`. -/
theorem oneResponsePerCommand : Obligations.OneResponsePerCommand := by
  intro s t hbusy h p
  cases portEffect_of_step hbusy h p with
  | unchanged e => exact .inl ⟨by rw [e], .inl (by rw [e])⟩
  | presented hp hr => exact .inl ⟨hr, .inr (.inl hp)⟩
  | reset hp hr he => exact .inl ⟨hr, .inr (.inr ⟨hp, he⟩)⟩
  | answered w r hp hw hr hop => exact .inr ⟨hp, w, r, hw, hr, hop⟩

end Sys2Proof.Machine
end

section
/-! PROOFS. The frame of every operation (10_state.md R25). -/

namespace Sys2Proof.Machine

@[simp] theorem answered_portA_host (s : State) (r : ResponseWord) :
    (answered s r).portA.host = s.portA.host := by
  unfold answered; split <;> rfl

@[simp] theorem answered_portC_host (s : State) (r : ResponseWord) :
    (answered s r).portC.host = s.portC.host := by
  unfold answered; split <;> rfl

/-- What operation `i` leaves alone in a step from `s` to `t` (10_state.md R25, 43_sample_pipeline.md R88). -/
structure OperationFrame (i : Instr) (s t : State) : Prop where
  mem : t.mem = s.mem
  rom : t.rom = s.rom
  platform : t.platform = s.platform
  turn : t.turn = s.turn
  serving : t.serving = s.serving
  hostA : t.portA.host = s.portA.host
  hostC : t.portC.host = s.portC.host
  acc : (∃ w, encode i = .command w) → t.acc = s.acc
  par : (∀ id v, i ≠ .setp id v) → t.par = s.par
  strbuf : (∀ id v, i ≠ .getstr id v) → t.strbuf = s.strbuf
  seq : (∀ src dst n, i ≠ .process src dst n) → t.seq = s.seq

/-- A stage operation has no command word, and writes `ACC` and the filter memory only. -/
theorem OperationFrame.of_stage {i : Instr} {s t : State} (hi : ∀ w, encode i ≠ .command w)
    (h : t = { s with acc := t.acc, fm := t.fm }) : OperationFrame i s t := by
  rw [h]
  exact ⟨rfl, rfl, rfl, rfl, rfl, rfl, rfl, fun ⟨w, hw⟩ => absurd hw (hi w), fun _ => rfl, fun _ => rfl,
    fun _ => rfl⟩

theorem operationFrame_answered {i : Instr} {s u : State} {r : ResponseWord} (h : OperationFrame i s u) :
    OperationFrame i s (answered u r) where
  mem := (answered_mem u r).trans h.mem
  rom := (answered_rom u r).trans h.rom
  platform := (answered_platform u r).trans h.platform
  turn := (answered_turn u r).trans h.turn
  serving := (answered_serving u r).trans h.serving
  hostA := (answered_portA_host u r).trans h.hostA
  hostC := (answered_portC_host u r).trans h.hostC
  acc hi := (answered_acc u r).trans (h.acc hi)
  par hi := (answered_par u r).trans (h.par hi)
  strbuf hi := (answered_strbuf u r).trans (h.strbuf hi)
  seq hi := (answered_seq u r).trans (h.seq hi)

theorem OperationFrame.refl (i : Instr) (s : State) : OperationFrame i s s := by
  constructor <;> intros <;> rfl

/-- An audio-class command is turned away on port C; on port A its effect counts. -/
theorem operationFrame_audioClass {i : Instr} {op : Byte} {effect : State → State} {s : State}
    (h : OperationFrame i s (effect s)) : OperationFrame i s (audioClass op effect s) := by
  unfold audioClass
  split
  · exact h
  · rw [turnAway, respond_eq]; exact operationFrame_answered (.refl i s)

theorem operationFrame_respondOk {i : Instr} {op : Byte} {value : BitVec 32} {str : BitVec 128}
    {s u : State} (h : OperationFrame i s u) : OperationFrame i s (respondOk op value str u) := by
  rw [respondOk, respond_eq]; exact operationFrame_answered h

theorem operationFrame_exec (i : Instr) (s : State) : ∃ t, exec i s = .next t ∧ OperationFrame i s t := by
  cases i
  case init =>
    exact ⟨_, rfl, operationFrame_audioClass (operationFrame_respondOk (by constructor <;> simp [clearFM]))⟩
  case reset =>
    exact ⟨_, rfl, operationFrame_audioClass (operationFrame_respondOk (by constructor <;> simp [clearFM]))⟩
  case process => exact ⟨_, rfl, operationFrame_audioClass (by constructor <;> simp [startProcess])⟩
  case setp => exact ⟨_, rfl, operationFrame_respondOk (by constructor <;> simp)⟩
  case getp => exact ⟨_, rfl, operationFrame_respondOk (.refl _ s)⟩
  case getstr => exact ⟨_, rfl, operationFrame_respondOk (by constructor <;> simp)⟩
  case getbmp => exact ⟨_, rfl, operationFrame_respondOk (.refl _ s)⟩
  case bass1 => exact ⟨_, rfl, .of_stage (by simp [encode]) (by unfold bass1Stage; split <;> rfl)⟩
  case bass2 => exact ⟨_, rfl, .of_stage (by simp [encode]) (by unfold bass2Stage; split <;> rfl)⟩
  case high => exact ⟨_, rfl, .of_stage (by simp [encode]) (by unfold highStage; split <;> rfl)⟩
  all_goals exact ⟨_, rfl, .of_stage (by simp [encode]) rfl⟩

/-- Settles O59: the fields of `OperationFrame`. -/
theorem operationsLeaveTheRestAlone : Obligations.OperationsLeaveTheRestAlone := by
  intro i s
  obtain ⟨t, ht, hf⟩ := operationFrame_exec i s
  exact ⟨t, ht, fun a => by rw [hf.mem], hf.rom, hf.platform, hf.turn, hf.serving, hf.hostA, hf.hostC,
    hf.acc, hf.par, hf.strbuf, hf.seq⟩

end Sys2Proof.Machine
end

section
/-! PROOFS. Every primitive's result lies between any two finite values that its exact result lies between
(40_numerics.md R56): the ranges and the finiteness of the parameter registers follow from it. -/

namespace Sys2Proof.Machine

/-! ### Fields of a packed pattern -/

theorem infMag_binary32 : infMag binary32 = 2139095040 := by decide

section
variable {neg : Bool} {m : Nat}

theorem packPat_toNat (h : m ≤ infMag binary32) :
    (BitVec.ofNat 32 (packPat binary32 neg m)).toNat = if neg then 2147483648 + m else m := by
  rw [infMag_binary32] at h
  cases neg <;> simp only [packPat, BitVec.toNat_ofNat, if_true, Bool.false_eq_true, if_false] <;> omega

theorem fmag_packPat (h : m ≤ infMag binary32) : fmag (BitVec.ofNat 32 (packPat binary32 neg m)) = m := by
  rw [fmag, magPat, packPat_toNat h]
  rw [infMag_binary32] at h
  cases neg <;> simp only [if_true, Bool.false_eq_true, if_false] <;> omega

theorem fsign_packPat (h : m ≤ infMag binary32) :
    fsign (BitVec.ofNat 32 (packPat binary32 neg m)) = neg := by
  rw [fsign, signPat, packPat_toNat h]
  rw [infMag_binary32] at h
  cases neg
  · have hlt : ¬ 2147483648 ≤ m := by omega
    simpa using hlt
  · simp

theorem isNaN_packPat (h : m ≤ infMag binary32) :
    isNaN (BitVec.ofNat 32 (packPat binary32 neg m)) = false := by
  have e : isNaN (BitVec.ofNat 32 (packPat binary32 neg m)) =
      decide (infMag binary32 < fmag (BitVec.ofNat 32 (packPat binary32 neg m))) := rfl
  rw [e, fmag_packPat h, decide_eq_false_iff_not]
  omega

end

theorem fmag_le_infMag {x : Word} (h : isNaN x = false) : fmag x ≤ infMag binary32 := by
  simpa [isNaN, nanPat, fmag] using h

/-! ### Values between two bounds -/

/-- `lo ≤ x ≤ hi`; none of the three is a NaN. -/
abbrev between (lo hi x : Word) : Prop := fle lo x = true ∧ fle x hi = true

theorem between_quanta {lo hi x : Word} (h : between lo hi x) :
    fquanta lo ≤ fquanta x ∧ fquanta x ≤ fquanta hi :=
  ⟨((fle_iff _ _).1 h.1).2.2, ((fle_iff _ _).1 h.2).2.2⟩

theorem isFinite_iff (x : Word) : isFinite x = true ↔ isNaN x = false ∧ isInf x = false := by
  simp only [isFinite, isNaN, isInf, nanPat, infPat, decide_eq_true_eq, decide_eq_false_iff_not]
  omega

theorem isFinite_of_between {lo hi x : Word} (hlo : isFinite lo = true) (hhi : isFinite hi = true)
    (h : between lo hi x) : isFinite x = true := by
  have hx : isNaN x = false := ((fle_iff _ _).1 h.1).2.1
  obtain ⟨hge, hle⟩ := between_quanta h
  rw [isFinite_iff] at hlo hhi
  refine (isFinite_iff x).2 ⟨hx, ?_⟩
  by_contra hi
  rcases isInf_cases (by simpa using hi : isInf x = true) with rfl | rfl
  · have := fquanta_lt_of_not_isInf hhi.1 hhi.2
    omega
  · have := fquanta_lt_of_not_isInf (x := fneg lo) (by rw [isNaN_fneg, hlo.1]) (by rw [isInf_fneg, hlo.2])
    have e : fquanta negInf = -fquanta posInf := by decide
    rw [fquanta_fneg] at this
    omega

/-! ### Rounding keeps bounds -/

/-- The number `±num`. -/
def signedNat (neg : Bool) (num : Nat) : Int := if neg then -(num : Int) else num

theorem signedNat_natAbs (z : Int) : signedNat (decide (z < 0)) z.natAbs = z := by
  unfold signedNat
  split
  · next h => have := of_decide_eq_true h; omega
  · next h => have := of_decide_eq_false (by simpa using h : decide (z < 0) = false); omega

theorem signedNat_mul (s t : Bool) (m n : Nat) :
    signedNat (s != t) (m * n) = signedNat s m * signedNat t n := by
  cases s <;> cases t <;> simp [signedNat]

theorem signedNat_mul_right (s : Bool) (m n : Nat) : signedNat s (m * n) = signedNat s m * n := by
  cases s <;> simp [signedNat]

theorem signedNat_not (neg : Bool) (num : Nat) : signedNat (!neg) num = -signedNat neg num := by
  cases neg <;> simp [signedNat]

theorem fquanta_eq_signedNat (x : Word) : fquanta x = signedNat (fsign x) (quanta binary32 (fmag x)) := rfl

theorem fneg_packPat {neg : Bool} {m : Nat} (h : m ≤ infMag binary32) :
    fneg (BitVec.ofNat 32 (packPat binary32 neg m)) = BitVec.ofNat 32 (packPat binary32 (!neg) m) :=
  word_ext (by rw [fsign_fneg, fsign_packPat h, fsign_packPat h])
    (by rw [fmag_fneg, fmag_packPat h, fmag_packPat h])

theorem roundMag_zero {den : Nat} (hden : 0 < den) : roundMag binary32 0 den = 0 :=
  Nat.le_zero.1 (roundMag_le binary32 hden (Nat.zero_le _) (by simp))

/-- Rounding `±num / den` quanta keeps an upper bound. -/
theorem packPat_roundMag_fle {neg : Bool} {num den : Nat} {hi : Word} (hden : 0 < den)
    (hhi : isNaN hi = false) (h : signedNat neg num ≤ fquanta hi * den) :
    fle (BitVec.ofNat 32 (packPat binary32 neg (roundMag binary32 num den))) hi = true := by
  have hr := roundMag_le_infMag binary32 num den
  have hm := fmag_le_infMag hhi
  refine (fle_iff _ _).2 ⟨isNaN_packPat hr, hhi, ?_⟩
  rw [fquanta_eq_signedNat, fsign_packPat hr, fmag_packPat hr]
  rw [fquanta_eq_signedNat] at h ⊢
  cases neg <;> cases hs : fsign hi <;>
    simp only [signedNat, hs, if_true, Bool.false_eq_true, if_false] at h ⊢
  · have := quanta_le_quanta _ (roundMag_le binary32 hden hm (by exact_mod_cast h)) hm
    omega
  · have hz : num = 0 ∧ quanta binary32 (fmag hi) * den = 0 := by
      rw [neg_mul] at h
      have h' : (num : Int) ≤ -((quanta binary32 (fmag hi) * den : Nat) : Int) := by exact_mod_cast h
      omega
    have hq := (Nat.mul_eq_zero.1 hz.2).resolve_right hden.ne'
    rw [hz.1, roundMag_zero hden, quanta_zero, hq]
    simp
  · omega
  · have hle : quanta binary32 (fmag hi) * den ≤ num := by
      rw [neg_mul, neg_le_neg_iff] at h; exact_mod_cast h
    have := quanta_le_quanta _ (le_roundMag binary32 hden hm hle) hr
    omega

theorem fle_fneg_fneg {x y : Word} : fle (fneg x) (fneg y) = true ↔ fle y x = true := by
  simp only [fle_iff, isNaN_fneg, fquanta_fneg, neg_le_neg_iff]
  tauto

/-- Rounding `±num / den` quanta keeps both bounds. -/
theorem between_packPat_roundMag {neg : Bool} {num den : Nat} {lo hi : Word} (hden : 0 < den)
    (hlo : isNaN lo = false) (hhi : isNaN hi = false) (hl : fquanta lo * den ≤ signedNat neg num)
    (hh : signedNat neg num ≤ fquanta hi * den) :
    between lo hi (BitVec.ofNat 32 (packPat binary32 neg (roundMag binary32 num den))) := by
  refine ⟨fle_fneg_fneg.1 ?_, packPat_roundMag_fle hden hhi hh⟩
  rw [fneg_packPat (roundMag_le_infMag _ _ _)]
  refine packPat_roundMag_fle hden (by rw [isNaN_fneg, hlo]) ?_
  rw [signedNat_not, fquanta_fneg]
  linarith

/-! ### The primitives -/

theorem nanPat_of_isFinite {x : Word} (h : isFinite x = true) : nanPat binary32 x.toNat = false :=
  ((isFinite_iff x).1 h).1

theorem infPat_of_isFinite {x : Word} (h : isFinite x = true) : infPat binary32 x.toNat = false :=
  ((isFinite_iff x).1 h).2

theorem oneExp_binary32 : oneExp binary32 = 149 := by decide

section
variable {a b lo hi : Word} (ha : isFinite a = true) (hb : isFinite b = true)
  (hlo : isNaN lo = false) (hhi : isNaN hi = false)
include ha hb hlo hhi

theorem fadd_between (hl : fquanta lo ≤ fquanta a + fquanta b) (hh : fquanta a + fquanta b ≤ fquanta hi) :
    between lo hi (fadd a b) := by
  have hz (z : Int) (neg : Bool) (e : signedNat neg z.natAbs = z) (hl : fquanta lo ≤ z)
      (hh : z ≤ fquanta hi) :
      between lo hi (BitVec.ofNat 32 (packPat binary32 neg (roundMag binary32 z.natAbs 1))) :=
    between_packPat_roundMag one_pos hlo hhi (by rw [e]; simpa using hl) (by rw [e]; simpa using hh)
  simp only [fadd, addPat, nanPat_of_isFinite ha, nanPat_of_isFinite hb, infPat_of_isFinite ha,
    infPat_of_isFinite hb, Bool.or_self, Bool.false_eq_true, if_false]
  change fquanta lo ≤ signedQuanta binary32 a.toNat + signedQuanta binary32 b.toNat at hl
  change signedQuanta binary32 a.toNat + signedQuanta binary32 b.toNat ≤ fquanta hi at hh
  split
  · next h0 =>
    rw [h0] at hl hh
    have := hz 0 (signPat binary32 a.toNat && signPat binary32 b.toNat) (by simp [signedNat]) hl hh
    rwa [Int.natAbs_zero, roundMag_zero one_pos] at this
  · exact hz _ _ (signedNat_natAbs _) hl hh

theorem fmul_between (hl : fquanta lo * 2 ^ 149 ≤ fquanta a * fquanta b)
    (hh : fquanta a * fquanta b ≤ fquanta hi * 2 ^ 149) : between lo hi (fmul a b) := by
  simp only [fmul, mulPat, nanPat_of_isFinite ha, nanPat_of_isFinite hb, infPat_of_isFinite ha,
    infPat_of_isFinite hb, Bool.or_self, Bool.false_eq_true, if_false, oneExp_binary32]
  have e : signedNat (signPat binary32 a.toNat != signPat binary32 b.toNat)
      (quanta binary32 (magPat binary32 a.toNat) * quanta binary32 (magPat binary32 b.toNat)) =
      fquanta a * fquanta b := signedNat_mul _ _ _ _
  exact between_packPat_roundMag (by positivity) hlo hhi (by rw [e]; exact_mod_cast hl)
    (by rw [e]; exact_mod_cast hh)

/-- Division by a positive value. -/
theorem fdiv_between (hpos : 0 < fquanta b) (hl : fquanta lo * fquanta b ≤ fquanta a * 2 ^ 149)
    (hh : fquanta a * 2 ^ 149 ≤ fquanta hi * fquanta b) : between lo hi (fdiv a b) := by
  obtain ⟨hsb, hb0⟩ := (fquanta_pos_iff b).1 hpos
  have hmb : magPat binary32 b.toNat ≠ 0 := of_decide_eq_false hb0
  have hqb : fquanta b = (quanta binary32 (magPat binary32 b.toNat) : Int) := by
    rw [fquanta_eq, hsb]; simp [fmag]
  have hsb' : signPat binary32 b.toNat = false := hsb
  simp only [fdiv, divPat, nanPat_of_isFinite ha, nanPat_of_isFinite hb, infPat_of_isFinite ha,
    infPat_of_isFinite hb, Bool.or_self, Bool.false_eq_true, if_false, oneExp_binary32, hmb, hsb']
  have e : signedNat (signPat binary32 a.toNat != false)
      (quanta binary32 (magPat binary32 a.toNat) * 2 ^ 149) = fquanta a * 2 ^ 149 := by
    rw [Bool.bne_false, signedNat_mul_right]; rfl
  refine between_packPat_roundMag (quanta_pos (Nat.pos_of_ne_zero hmb)) hlo hhi ?_ ?_ <;>
    rw [e, ← hqb]
  · exact hl
  · exact hh

end

/-- An integer between two values converts to a word between them (R65). -/
theorem i2f_between {v : Int} {lo hi : Word} (hlo : isNaN lo = false) (hhi : isNaN hi = false)
    (hl : fquanta lo ≤ v * 2 ^ 149) (hh : v * 2 ^ 149 ≤ fquanta hi) : between lo hi (i2f v) := by
  have e : signedNat (decide (v < 0)) (v.natAbs * 2 ^ 149) = v * 2 ^ 149 := by
    rw [signedNat_mul_right, signedNat_natAbs]; rfl
  rw [i2f, oneExp_binary32]
  exact between_packPat_roundMag one_pos hlo hhi (by rw [e]; simpa using hl) (by rw [e]; simpa using hh)

end Sys2Proof.Machine
end

section
/-! PROOFS. The values SETP writes (10_state.md R12 to R14, 41_parameter_commands.md R73 to R75): in range
for a declared value, finite for every value a command word can carry. -/

namespace Sys2Proof.Machine

/-! ### Bounds through the formulas -/

section
variable {a b ma mb hi : Word} (hma : isFinite ma = true) (hmb : isFinite mb = true)
  (hhi : isNaN hi = false) (hm : fquanta ma * fquanta mb ≤ fquanta hi * 2 ^ 149)
include hma hmb hhi hm

/-- A product of two values of bounded magnitude. -/
theorem fmul_between_fneg (ha : between (fneg ma) ma a) (hb : between (fneg mb) mb b) :
    between (fneg hi) hi (fmul a b) := by
  have hfa := isFinite_of_between (by rw [isFinite_fneg, hma]) hma ha
  have hfb := isFinite_of_between (by rw [isFinite_fneg, hmb]) hmb hb
  have hqa := between_quanta ha
  have hqb := between_quanta hb
  rw [fquanta_fneg, ← abs_le] at hqa hqb
  have h : |fquanta a * fquanta b| ≤ fquanta hi * 2 ^ 149 := by
    rw [abs_mul]
    exact (mul_le_mul hqa hqb (abs_nonneg _) ((abs_nonneg _).trans hqa)).trans hm
  obtain ⟨hl, hh⟩ := abs_le.1 h
  exact fmul_between hfa hfb (by rw [isNaN_fneg, hhi]) hhi (by rw [fquanta_fneg, neg_mul]; exact hl) hh

/-- A product of two values that are not negative. -/
theorem fmul_between_posZero (ha : between posZero ma a) (hb : between posZero mb b) :
    between posZero hi (fmul a b) := by
  have hfa := isFinite_of_between (by decide) hma ha
  have hfb := isFinite_of_between (by decide) hmb hb
  obtain ⟨hla, hha⟩ := between_quanta ha
  obtain ⟨hlb, hhb⟩ := between_quanta hb
  rw [fquanta_posZero] at hla hlb
  refine fmul_between hfa hfb (by decide) hhi ?_ ((mul_le_mul hha hhb hlb (hla.trans hha)).trans hm)
  rw [fquanta_posZero, zero_mul]
  exact mul_nonneg hla hlb

end

/-- `NORM` of an integer whose conversion lies between `lo'` and `hi'`: the bounds divided by 100 (R73). -/
theorem NORM_between {v : Int} {lo hi lo' hi' : Word} (hlo' : isFinite lo' = true)
    (hhi' : isFinite hi' = true) (hlo : isNaN lo = false) (hhi : isNaN hi = false)
    (hl : fquanta lo' ≤ v * 2 ^ 149) (hh : v * 2 ^ 149 ≤ fquanta hi')
    (hl' : fquanta lo * fquanta f100 ≤ fquanta lo' * 2 ^ 149)
    (hh' : fquanta hi' * 2 ^ 149 ≤ fquanta hi * fquanta f100) : between lo hi (NORM v) := by
  have hi2f := i2f_between (isNaN_of_isFinite hlo') (isNaN_of_isFinite hhi') hl hh
  obtain ⟨hl2, hh2⟩ := between_quanta hi2f
  refine fdiv_between (isFinite_of_between hlo' hhi' hi2f) (by decide) hlo hhi (by decide) ?_ ?_
  · exact hl'.trans (by linarith)
  · exact le_trans (by linarith) hh'

/-- `2n − 1` for `n` of magnitude `m` at most, `m2` being twice `m` (R74). -/
theorem waveshapeOf_between {n m m2 lo hi : Word} (hm : isFinite m = true) (hm2 : isFinite m2 = true)
    (h2 : fquanta f2 * fquanta m ≤ fquanta m2 * 2 ^ 149) (hlo : isNaN lo = false) (hhi : isNaN hi = false)
    (hl : fquanta lo ≤ -fquanta m2 + fquanta (fneg f1)) (hh : fquanta m2 + fquanta (fneg f1) ≤ fquanta hi)
    (hn : between (fneg m) m n) : between lo hi (waveshapeOf n) := by
  have hf2 : between (fneg f2) f2 f2 := by decide
  have h2n := fmul_between_fneg (by decide) hm (isNaN_of_isFinite hm2) h2 hf2 hn
  have hfin := isFinite_of_between (by rw [isFinite_fneg, hm2]) hm2 h2n
  obtain ⟨hl2, hh2⟩ := between_quanta h2n
  rw [fquanta_fneg] at hl2
  exact fadd_between hfin (by decide) hlo hhi (by linarith) (by linarith)

/-! ### In range (10_state.md R14, R27 I-6) -/

/-- A declared value normalises to 0 to 1. -/
theorem NORM_declared {v : Int} (h0 : 0 ≤ v) (h1 : v ≤ 100) : between posZero f1 (NORM v) := by
  have e : fquanta f100 = 100 * 2 ^ 149 := by decide
  refine NORM_between (lo' := posZero) (hi' := f100) (by decide) (by decide) (by decide) (by decide)
    ?_ ?_ (by decide) (by decide)
  · rw [fquanta_posZero]; positivity
  · rw [e]; linarith

/-- A declared value of parameter 3 normalises to −1 to 1. -/
theorem NORM_declared_signed {v : Int} (h0 : -100 ≤ v) (h1 : v ≤ 100) :
    between (fneg f1) f1 (NORM v) := by
  have e : fquanta f100 = 100 * 2 ^ 149 := by decide
  refine NORM_between (lo' := fneg f100) (hi' := f100) (by decide) (by decide) (by decide) (by decide)
    ?_ ?_ (by decide) (by decide)
  · rw [fquanta_fneg, e]; linarith
  · rw [e]; linarith

theorem scaledClipping_unit {n : Word} (h : between posZero f1 n) :
    between posZero f20 (scaledClipping n) := by
  have hsq : between posZero f1 (fmul n n) :=
    fmul_between_posZero (by decide) (by decide) (by decide) (by decide) h h
  exact fmul_between_posZero (mb := f20) (by decide) (by decide) (by decide) (by decide) hsq (by decide)

theorem waveshapeOf_unit {n : Word} (h : between (fneg f1) f1 n) :
    between 0xC0400000#32 f1 (waveshapeOf n) :=
  waveshapeOf_between (m2 := f2) (by decide) (by decide) (by decide) (by decide) (by decide) (by decide)
    (by decide) h

theorem Params.inRange_iff (p : Params) :
    p.inRange = true ↔ between posZero f1 p.clipping ∧ between posZero f20 p.sclip ∧
      between posZero f1 p.drive ∧ between posZero f1 p.compress ∧
      between 0xC0400000#32 f1 p.waveshape ∧ between posZero f1 p.bass ∧ between posZero f1 p.high := by
  simp only [Params.inRange, Bool.and_eq_true, and_assoc]

/-- SETP of a declared value, register by register (R12, R74). -/
theorem Params.write_inRange {p : Params} {id : Nat} {v : Int} (hp : p.inRange = true)
    (h0 : if id = 3 then -100 ≤ v else 0 ≤ v) (h1 : v ≤ 100) : (p.write id v).inRange = true := by
  rw [Params.inRange_iff] at hp ⊢
  obtain ⟨hclip, hsclip, hdrive, hcomp, hwave, hbass, hhigh⟩ := hp
  have hn (hid : id ≠ 3) : between posZero f1 (NORM v) := NORM_declared (by simpa [hid] using h0) h1
  unfold Params.write
  split
  · exact ⟨hn (by simp), scaledClipping_unit (hn (by simp)), hdrive, hcomp, hwave, hbass, hhigh⟩
  · exact ⟨hclip, hsclip, hn (by simp), hcomp, hwave, hbass, hhigh⟩
  · exact ⟨hclip, hsclip, hdrive, hn (by simp), hwave, hbass, hhigh⟩
  · have hw := waveshapeOf_unit (NORM_declared_signed (by simpa using h0) h1)
    exact ⟨hclip, hsclip, hdrive, hcomp, hw, hbass, hhigh⟩
  · exact ⟨hclip, hsclip, hdrive, hcomp, hwave, hn (by simp), hhigh⟩
  · exact ⟨hclip, hsclip, hdrive, hcomp, hwave, hbass, hn (by simp)⟩
  · exact ⟨hclip, hsclip, hdrive, hcomp, hwave, hbass, hhigh⟩

theorem execSetp_par {id : Nat} {v : Int} {s t : State} (h : exec (.setp id v) s = .next t) :
    t.par = s.par.write id v := by
  obtain rfl := Host.Outcome.next.inj h
  simp [respondOk, respond_eq]

/-- Settles O51: each formula keeps the bounds of the declared domain. -/
theorem rangesKeptByDeclaredValues : Obligations.RangesKeptByDeclaredValues := by
  refine ⟨by decide, fun s t id v hs h0 h1 ht => ?_⟩
  rw [execSetp_par ht]
  exact Params.write_inRange hs h0 h1

/-! ### Finite (10_state.md R27 I-3) -/

/-- The word `2^31`. -/
def twoPow31 : Word := 0x4F000000#32

/-- Every 32-bit value normalises to a magnitude of `2^31` at most. -/
theorem NORM_of_valueFits {v : Int} (h : valueFits v = true) :
    between (fneg twoPow31) twoPow31 (NORM v) := by
  have e : fquanta twoPow31 = 2147483648 * 2 ^ 149 := by decide
  simp only [valueFits, Bool.and_eq_true, decide_eq_true_eq] at h
  refine NORM_between (lo' := fneg twoPow31) (hi' := twoPow31) (by decide) (by decide) (by decide)
    (by decide) ?_ ?_ (by decide) (by decide)
  · rw [fquanta_fneg, e]; linarith
  · rw [e]; linarith

/-- `n² × 20` stays below `2^67`. -/
theorem scaledClipping_finite {n : Word} (h : between (fneg twoPow31) twoPow31 n) :
    isFinite (scaledClipping n) = true := by
  have hsq : between (fneg 0x5E800000#32) 0x5E800000#32 (fmul n n) :=
    fmul_between_fneg (by decide) (by decide) (by decide) (by decide) h h
  have hs : between (fneg 0x61000000#32) 0x61000000#32 (scaledClipping n) :=
    fmul_between_fneg (mb := f20) (by decide) (by decide) (by decide) (by decide) hsq (by decide)
  exact isFinite_of_between (by decide) (by decide) hs

/-- `2n − 1` stays within `±2^33`. -/
theorem waveshapeOf_finite {n : Word} (h : between (fneg twoPow31) twoPow31 n) :
    isFinite (waveshapeOf n) = true := by
  have hw : between (fneg 0x50000000#32) 0x50000000#32 (waveshapeOf n) :=
    waveshapeOf_between (m2 := 0x4F800000#32) (by decide) (by decide) (by decide) (by decide) (by decide)
      (by decide) (by decide) h
  exact isFinite_of_between (by decide) (by decide) hw

/-- SETP of any value a command word can carry leaves every register finite. -/
theorem Params.write_finite {p : Params} {id : Nat} {v : Int} (hp : p.finite) (hv : valueFits v = true) :
    (p.write id v).finite := by
  obtain ⟨hclip, hsclip, hdrive, hcomp, hwave, hbass, hhigh⟩ := hp
  have hb := NORM_of_valueFits hv
  have hn : isFinite (NORM v) = true := isFinite_of_between (by decide) (by decide) hb
  unfold Params.write
  split
  · exact ⟨hn, scaledClipping_finite hb, hdrive, hcomp, hwave, hbass, hhigh⟩
  · exact ⟨hclip, hsclip, hn, hcomp, hwave, hbass, hhigh⟩
  · exact ⟨hclip, hsclip, hdrive, hn, hwave, hbass, hhigh⟩
  · exact ⟨hclip, hsclip, hdrive, hcomp, waveshapeOf_finite hb, hbass, hhigh⟩
  · exact ⟨hclip, hsclip, hdrive, hcomp, hwave, hn, hhigh⟩
  · exact ⟨hclip, hsclip, hdrive, hcomp, hwave, hbass, hn⟩
  · exact ⟨hclip, hsclip, hdrive, hcomp, hwave, hbass, hhigh⟩

/-- SETP writes `CLIPPING` and `SCLIP` together (R27 I-1). -/
theorem Params.write_sclip {p : Params} (id : Nat) (v : Int)
    (hp : p.sclip = scaledClipping p.clipping) :
    (p.write id v).sclip = scaledClipping (p.write id v).clipping := by
  unfold Params.write
  split <;> simp [hp]

end Sys2Proof.Machine
end

section
/-! PROOFS. The invariants of 10_state.md R27: at reset, and kept by every kind of step. -/

namespace Sys2Proof.Machine

/-! ### The string GETSTR makes (40_numerics.md R71, 41_parameter_commands.md R77) -/

/-- A character of the buffer: ASCII and not zero (R18). -/
def isChar (b : Byte) : Prop := b ≠ 0 ∧ b.toNat < 128

theorem isChar_digit {d : Nat} (h : d < 10) : isChar (BitVec.ofNat 8 (0x30 + d)) := by
  unfold isChar
  interval_cases d <;> decide

theorem decDigits_isChar {fuel m : Nat} : ∀ b ∈ decDigits fuel m, isChar b := by
  induction fuel generalizing m with
  | zero => simp [decDigits]
  | succ fuel ih =>
    unfold decDigits
    split
    · next h => simpa using isChar_digit h
    · intro b hb
      rcases List.mem_append.1 hb with hb | hb
      · exact ih b hb
      · rw [List.mem_singleton.1 hb]; exact isChar_digit (Nat.mod_lt _ (by decide))

theorem decDigits_length_le (fuel m : Nat) : (decDigits fuel m).length ≤ fuel := by
  induction fuel generalizing m with
  | zero => simp [decDigits]
  | succ fuel ih =>
    unfold decDigits
    split
    · simp
    · simpa using ih (m / 10)

theorem decDigits_length_pos (fuel m : Nat) : 0 < (decDigits (fuel + 1) m).length := by
  unfold decDigits
  split <;> simp

theorem percentString_isChar (v : Int) : ∀ b ∈ percentString v, isChar b := by
  intro b hb
  simp only [percentString, DEC, List.mem_append, List.mem_singleton, List.mem_ite_nil_right] at hb
  rcases hb with (⟨-, rfl⟩ | hb) | rfl
  · unfold isChar; decide
  · exact decDigits_isChar b hb
  · unfold isChar; decide

theorem percentString_length (v : Int) :
    2 ≤ (percentString v).length ∧ (percentString v).length ≤ 12 := by
  have h1 : 0 < (decDigits 10 v.natAbs).length := decDigits_length_pos 9 v.natAbs
  have h2 := decDigits_length_le 10 v.natAbs
  have h3 : (if v < 0 then [0x2D#8] else []).length ≤ 1 := by split <;> simp
  simp only [percentString, DEC, List.length_append, List.length_singleton]
  omega

theorem fillString_get (l : List Byte) (k : Fin 16) : (fillString l)[k] = l.getD k 0 := by
  fin_cases k <;> rfl

theorem strbufOk_fillString {l : List Byte} (hl : 2 ≤ l.length ∧ l.length ≤ 12)
    (hc : ∀ b ∈ l, isChar b) : strbufOk (fillString l) := by
  refine .inr ⟨l.length, hl.1, hl.2, fun k => ?_⟩
  rw [fillString_get]
  split
  · next h => rw [List.getD_eq_getElem _ _ h]; exact hc _ (List.getElem_mem h)
  · next h => exact List.getD_eq_default _ _ (by omega)

theorem strbufOk_reset : strbufOk State.reset.strbuf := by
  refine .inl fun k => ?_
  simp [State.reset]

/-! ### The operation a command word spells -/

/-- Every decoded operation fits its fields (30_encoding.md R44). -/
theorem decodeCommand_wf {w : Command} {i : Instr} (h : decodeCommand w = .ok i) : i.wf = true := by
  have hid : idFits (idField w).toNat = true := decide_eq_true (idField w).isLt
  have hvalue : valueFits (cField w).toInt = true := by
    have h1 := BitVec.le_toInt (cField w)
    have h2 := BitVec.toInt_lt (x := cField w)
    simp only [valueFits, Bool.and_eq_true, decide_eq_true_eq]
    omega
  have hcount : countFits (cField w).toNat = true := decide_eq_true (cField w).isLt
  simp only [decodeCommand] at h
  split_ifs at h <;> cases h <;> simp [Instr.wf, hid, hvalue, hcount]

theorem valueFits_of_decode_setp {w : Command} {id : Nat} {v : Int}
    (h : decodeCommand w = .ok (.setp id v)) : valueFits v = true := by
  have hwf := decodeCommand_wf h
  simp only [Instr.wf, Bool.and_eq_true] at hwf
  exact hwf.2

theorem lt_of_decode_process {w : Command} {src dst : CellAddr} {n : Nat}
    (h : decodeCommand w = .ok (.process src dst n)) : n < 2 ^ 32 :=
  of_decide_eq_true (decodeCommand_wf h)

/-! ### The block sequencer (10_state.md R27 I-4) -/

theorem busyOk_of_idle {s : State} (h : s.seq.busy = false) : s.busyOk := by
  intro hb; rw [h] at hb; cases hb

/-- (I-4) speaks of the sequencer and of `PENDA` only. -/
theorem State.busyOk.congr {s t : State} (h : s.busyOk) (hseq : t.seq = s.seq)
    (hpend : t.portA.pend = s.portA.pend) : t.busyOk := by
  unfold State.busyOk
  rw [hseq, hpend]
  exact h

theorem answered_portA_of_serving_C {s : State} (h : s.serving = .C) (r : ResponseWord) :
    (answered s r).portA = s.portA := by
  unfold answered; rw [h]

/-- A response on port A while no PROCESS runs, or on port C, keeps (I-4). -/
theorem busyOk_answered {s : State} (h : s.busyOk) (hA : s.serving = .A → s.seq.busy = false)
    (r : ResponseWord) : (answered s r).busyOk := by
  cases hs : s.serving with
  | A => exact busyOk_of_idle (by rw [answered_seq]; exact hA hs)
  | C => exact h.congr (answered_seq s r) (by rw [answered_portA_of_serving_C hs])

theorem busyOk_startProcess {s : State} {w : Command} {src dst : CellAddr} {n : Nat}
    (hw : s.portA.pend = some w) (hdec : decodeCommand w = .ok (.process src dst n)) :
    (startProcess src dst n s).busyOk := by
  intro _
  refine ⟨w, src, dst, n, hw, hdec, rfl, rfl, ?_, Nat.zero_le _, fun _ => rfl⟩
  simpa [startProcess] using lt_of_decode_process hdec

/-- A sample step that still had a sample to do: from the left channel to the right one of the same frame,
from the right one to the left one of the next frame. -/
theorem busyOk_advance {s t : State} (h : s.busyOk) (hf : s.seq.fidx ≠ s.seq.fcnt)
    (hseq : t.seq = s.seq.advance) (hpend : t.portA.pend = s.portA.pend) : t.busyOk := by
  intro hb
  have hb' : s.seq.busy = true := by
    rw [hseq] at hb; unfold Sequencer.advance at hb; split at hb <;> exact hb
  obtain ⟨w, src, dst, n, hw, hdec, hsrc, hdst, hn, hle, -⟩ := h hb'
  have hlt : s.seq.fidx.toNat < s.seq.fcnt.toNat :=
    lt_of_le_of_ne hle fun e => hf (BitVec.eq_of_toNat_eq e)
  refine ⟨w, src, dst, n, hpend.trans hw, hdec, ?_⟩
  rw [hseq]
  unfold Sequencer.advance
  split
  · exact ⟨hsrc, hdst, hn, hle, fun e => absurd e hf⟩
  · refine ⟨hsrc, hdst, hn, ?_, fun _ => rfl⟩
    have := s.seq.fcnt.isLt
    rw [BitVec.toNat_add, Nat.mod_eq_of_lt] <;> simp <;> omega

/-! ### The invariants, kind by kind -/

theorem MachineInv.setTurn {s : State} (h : MachineInv s) (n : Nat) : MachineInv (s.setTurn n) :=
  ⟨h.sclip, h.boost, h.finite, h.busy, h.rom, h.strbuf, h.mem⟩

theorem MachineInv.setServing {s : State} (h : MachineInv s) (p : Port) : MachineInv (s.setServing p) :=
  ⟨h.sclip, h.boost, h.finite, h.busy, h.rom, h.strbuf, h.mem⟩

theorem MachineInv.answered {s : State} (h : MachineInv s) (hA : s.serving = .A → s.seq.busy = false)
    (r : ResponseWord) : MachineInv (answered s r) where
  sclip := by simpa using h.sclip
  boost := by simpa using h.boost
  finite := by simpa using h.finite
  busy := busyOk_answered h.busy hA r
  rom := by simpa using h.rom
  strbuf := by simpa using h.strbuf
  mem := by rw [answered_mem]; exact h.mem

theorem machineInv_serveCommand {s t : State} {p : Port} {w : Command} (h : MachineInv s)
    (hw : (s.port p).pend = some w) (hA : p = .A → s.seq.busy = false)
    (ht : serveCommand p w s = .next t) : MachineInv t := by
  rcases serveCommand_cases p w s with ⟨status, value, str, e⟩ | ⟨-, id, v, hdec, e⟩ |
    ⟨-, id, v, -, e⟩ | ⟨-, -, e⟩ | ⟨hp, src, dst, n, hdec, e⟩ <;>
    obtain rfl := Host.Outcome.next.inj (e.symm.trans ht)
  case inl => exact (h.setServing p).answered hA _
  case inr.inl =>
    refine MachineInv.answered (s := (s.setServing p).setPar _) ?_ hA _
    exact { h.setServing p with
      sclip := Params.write_sclip id v h.sclip
      finite := Params.write_finite h.finite (valueFits_of_decode_setp hdec) }
  case inr.inr.inl =>
    refine MachineInv.answered (s := (s.setServing p).setStrbuf _) ?_ hA _
    exact { h.setServing p with
      strbuf := strbufOk_fillString (percentString_length v) (percentString_isChar v) }
  case inr.inr.inr.inl =>
    refine MachineInv.answered (s := (s.setServing p).setFm _) ?_ hA _
    exact { h.setServing p with boost := ⟨rfl, rfl⟩ }
  case inr.inr.inr.inr =>
    subst hp
    exact { h.setServing .A with busy := busyOk_startProcess hw hdec }

theorem machineInv_sampleStep {s t : State} (h : MachineInv s) (hf : s.seq.fidx ≠ s.seq.fcnt)
    (ht : sampleStep s = .next t) : MachineInv t := by
  rw [sampleStep_eq] at ht
  cases ht
  exact { h with
    boost := processSample_boost Config.units (loadSample s) h.boost
    busy := busyOk_advance h.busy hf rfl rfl
    mem := memWrite_wf h.mem _ _ }

theorem machineInv_endProcess {s : State} (h : MachineInv s) : MachineInv (endProcess s) := by
  rw [endProcess, respondOk, respond_eq]
  refine MachineInv.answered ?_ (fun _ => rfl) _
  exact { h with busy := busyOk_of_idle rfl }

/-- A command is presented into an empty latch; on port A no PROCESS runs then. -/
theorem machineInv_present {s : State} {p : Port} {q : PortState} (h : MachineInv s)
    (hp : (s.port p).pend = none) : MachineInv (s.setPort p q) := by
  cases p with
  | C => exact { h with }
  | A =>
    have hidle : s.seq.busy = false := by
      by_contra hb
      obtain ⟨w, -, -, -, hw, -⟩ := h.busy (by simpa using hb)
      rw [State.port_A, hw] at hp; cases hp
    exact { h with busy := busyOk_of_idle hidle }

theorem paramsReset_finite : Params.reset.finite := by unfold Params.finite; decide

theorem paramsReset_sclip :
    Params.reset.sclip = fmul (fmul Params.reset.clipping Params.reset.clipping) 0x41A00000#32 := by decide

theorem machineInv_hardwareReset {s : State} (h : MachineInv s) : MachineInv (hardwareReset s) where
  sclip := paramsReset_sclip
  boost := ⟨rfl, rfl⟩
  finite := paramsReset_finite
  busy := busyOk_of_idle rfl
  rom := h.rom
  strbuf := strbufOk_reset
  mem := h.mem

theorem machineInv_step {s t : State} (h : MachineInv s) (ht : StepKind s t) : MachineInv t := by
  cases ht with
  | idle => exact h
  | @serve n p w _ hw hA ht =>
    exact machineInv_serveCommand (h.setTurn n) (by rw [State.setTurn_port]; exact hw) hA ht
  | @sample n _ hb hf ht => exact machineInv_sampleStep (h.setTurn n) hf ht
  | finish hb hf => exact machineInv_endProcess (h.setTurn _)
  | present hp hh => exact machineInv_present (h.setTurn _) (by rw [State.setTurn_port]; exact hp)
  | store he => exact { h with mem := memWrite_wf h.mem _ _ }
  | @reset n es he => exact { machineInv_hardwareReset (h.setTurn n) with }

/-- Settles O50: each kind of step keeps the invariants (10_state.md R27). -/
theorem invariantKeptByEveryStep : Obligations.InvariantKeptByEveryStep :=
  fun _ _ hs ht => machineInv_step hs (stepKind_of_step ht)

/-- Settles O47: the values of R26, field by field. -/
theorem resetState : Obligations.ResetState :=
  ⟨rfl, rfl, rfl, fun k => by simp [State.reset], rfl, rfl, rfl⟩

/-- Settles O49: the reset registers, the cleared filter memory and the empty memory (10_state.md R26). -/
theorem invariantAtReset : Obligations.InvariantAtReset where
  sclip := paramsReset_sclip
  boost := ⟨rfl, rfl⟩
  finite := paramsReset_finite
  busy := busyOk_of_idle rfl
  rom := rfl
  strbuf := strbufOk_reset
  mem := reset_mem_wf

end Sys2Proof.Machine
end

section
/-! PROOFS. The sample memory of a sample step: its two addresses and the cell it stores to
(20_memory.md R28, R32, R34). -/

namespace Sys2Proof.Machine

/-! ### The step of a running PROCESS -/

/-- With port A alone able to act, a PROCESS that has a sample left to do takes its sample step. -/
theorem step_sampleStep {s : State} (hA : onlyAEnabled s) (hb : s.seq.busy = true)
    (hf : s.seq.fidx ≠ s.seq.fcnt) (hp : s.portA.pend ≠ none) : step s = sampleStep s := by
  rw [step_onlyA hA (.inl hb) (.inl hp), serveA, if_pos hb, if_neg hf]

/-- The store of a sample step (42_audio_commands.md R85): the new `ACC`, at the old sequencer's output
address. -/
theorem sampleStep_mem {s t : State} (h : sampleStep s = .next t) :
    t.mem = memWrite s.mem (addrOut s.seq) t.acc := by
  rw [sampleStep_eq] at h
  cases h
  rfl

/-- Settles O16: the step is a sample step, whose one write is `memWrite` at the output address. -/
theorem sampleStepStoresOneCell : Obligations.SampleStepStoresOneCell := by
  intro s t hA hb hf hp hwf ht
  rw [step_sampleStep hA hb hf hp] at ht
  rw [sampleStep_mem ht]
  exact ⟨memRead_memWrite_same hwf _ _, fun _ hk => readByte_memWrite_ne _ _ _ hk⟩

/-! ### Addresses modulo 2^32 -/

theorem Channel.num_toNat (c : Channel) : c.num.toNat = if c = .left then 0 else 1 := by
  cases c <;> rfl

/-- The inner reduction of `2×FIDX` is absorbed by the outer one (20_memory.md R34). -/
theorem effectiveAddress_toNat (base : CellAddr) (fidx : BitVec 32) (c : Channel) :
    (effectiveAddress base fidx c).toNat =
      (base.toNat + 2 * fidx.toNat + if c = .left then 0 else 1) % 2 ^ 32 := by
  rw [← Channel.num_toNat]
  simp [effectiveAddress, BitVec.toNat_add, BitVec.toNat_mul]

/-- Settles O17: both addresses are an `effectiveAddress`. -/
theorem cellAddressesWrap : Obligations.CellAddressesWrap :=
  fun q => ⟨effectiveAddress_toNat q.src q.fidx q.ch, effectiveAddress_toNat q.dst q.fidx q.ch⟩

end Sys2Proof.Machine
end

section
/-! PROOFS. Command words and slot labels: what the decoder reads from each format and what the encoder puts
into it (30_encoding.md R43 to R47, R54). -/

namespace Sys2Proof

/-! ### Fields of a concatenation -/

open BitVec in
/-- A low slice that ends inside the upper part takes the whole lower part. -/
theorem extractLsb'_zero_add_append {u v : Nat} (k : Nat) (x : BitVec u) (y : BitVec v) :
    (x ++ y).extractLsb' 0 (k + v) = x.extractLsb' 0 k ++ y := by
  apply eq_of_getLsbD_eq; intro i hi
  simp only [getLsbD_extractLsb', getLsbD_append, hi, decide_true, Bool.true_and, Nat.zero_add]
  split
  · rfl
  · have h : i - v < k := by omega
    simp [h]

section
open BitVec
variable (op id : Byte) (r : BitVec 16) (a b c : BitVec 32)

/-- Bits 111:96 are `rsv` (30_encoding.md R43). -/
theorem extractLsb'_rsv_rawWord : (rawWord op id r a b c).extractLsb' 96 16 = r :=
  (extractLsb'_append_eq_of_le (by decide)).trans <| (extractLsb'_append_eq_of_le (by decide)).trans <|
    (extractLsb'_append_eq_of_le (by decide)).trans extractLsb'_append_eq_right

theorem extractLsb'_ab_rawWord : (rawWord op id r a b c).extractLsb' 32 64 = a ++ b :=
  (extractLsb'_append_eq_of_le (by decide)).trans <| (extractLsb'_zero_add_append 32 _ b).trans <|
    congrArg (· ++ b) extractLsb'_append_eq_right

theorem extractLsb'_abc_rawWord : (rawWord op id r a b c).extractLsb' 0 96 = a ++ b ++ c :=
  (extractLsb'_zero_add_append 64 _ c).trans <| congrArg (· ++ c) <|
    (extractLsb'_zero_add_append 32 _ b).trans <| congrArg (· ++ b) extractLsb'_append_eq_right

/-- Everything below the opcode. -/
theorem extractLsb'_operands_rawWord :
    (rawWord op id r a b c).extractLsb' 0 120 = id ++ r ++ a ++ b ++ c :=
  (extractLsb'_zero_add_append 88 _ c).trans <| congrArg (· ++ c) <|
    (extractLsb'_zero_add_append 56 _ b).trans <| congrArg (· ++ b) <|
    (extractLsb'_zero_add_append 24 _ a).trans <| congrArg (· ++ a) <|
    (extractLsb'_zero_add_append 8 _ r).trans <| congrArg (· ++ r) extractLsb'_append_eq_right

end

/-! ### What the decoder reads, opcode by opcode (R44, R45) -/

/-- The seven opcodes of R45; `decode_reserved` says that there are no others. -/
def commandOpcodes : List Byte := [opInit, opReset, opProcess, opSetp, opGetp, opGetstr, opGetbmp]

section
variable {w : Command}

theorem decode_init (h : opField w = opInit) : decode (.command w) = .ok .init := by
  rw [decode, decodeCommand, h]; rfl

theorem decode_reset (h : opField w = opReset) : decode (.command w) = .ok .reset := by
  rw [decode, decodeCommand, h]; rfl

theorem decode_process (h : opField w = opProcess) :
    decode (.command w) = .ok (.process (aField w) (bField w) (cField w).toNat) := by
  rw [decode, decodeCommand, h]; rfl

theorem decode_setp (h : opField w = opSetp) :
    decode (.command w) = .ok (.setp (idField w).toNat (cField w).toInt) := by
  rw [decode, decodeCommand, h]; rfl

theorem decode_getp (h : opField w = opGetp) : decode (.command w) = .ok (.getp (idField w).toNat) := by
  rw [decode, decodeCommand, h]; rfl

theorem decode_getstr (h : opField w = opGetstr) :
    decode (.command w) = .ok (.getstr (idField w).toNat (cField w).toInt) := by
  rw [decode, decodeCommand, h]; rfl

theorem decode_getbmp (h : opField w = opGetbmp) :
    decode (.command w) = .ok (.getbmp (idField w).toNat (cField w).toInt) := by
  rw [decode, decodeCommand, h]; rfl

theorem decode_reserved (h : opField w ∉ commandOpcodes) :
    decode (.command w) = .error (.reservedOpcode (opField w)) := by
  simp only [commandOpcodes, List.mem_cons, List.not_mem_nil, or_false, not_or] at h
  obtain ⟨hinit, hreset, hprocess, hsetp, hgetp, hgetstr, hgetbmp⟩ := h
  simp only [decode, decodeCommand, hinit, hreset, hprocess, hsetp, hgetp, hgetstr, hgetbmp, if_false]

end

/-- Settles O2: the equation of `decode` for each opcode. -/
theorem opcodeSelectsCommand : Obligations.OpcodeSelectsCommand := fun _ =>
  ⟨decode_init, decode_reset, decode_process, decode_setp, decode_getp, decode_getstr, decode_getbmp,
    decode_reserved⟩

/-- Settles O5: each word has the opcode of its command, and its fields compute. -/
theorem specWordsDecode : Obligations.SpecWordsDecode :=
  ⟨decode_init rfl, decode_reset rfl, decode_process rfl, decode_setp rfl, decode_setp rfl,
    decode_getp rfl, decode_getstr rfl, decode_getbmp rfl, decode_reserved (by decide), rfl, rfl⟩

/-! ### The same for a word given by its fields: those it does not use do not count (R47) -/

section
variable (id : Byte) (r : BitVec 16) (a b c : BitVec 32)

theorem decode_rawWord_init : decode (.command (rawWord opInit id r a b c)) = .ok .init :=
  decode_init (opField_rawWord ..)

theorem decode_rawWord_reset : decode (.command (rawWord opReset id r a b c)) = .ok .reset :=
  decode_reset (opField_rawWord ..)

theorem decode_rawWord_process :
    decode (.command (rawWord opProcess id r a b c)) = .ok (.process a b c.toNat) := by
  rw [decode_process (opField_rawWord ..), aField_rawWord, bField_rawWord, cField_rawWord]

theorem decode_rawWord_setp :
    decode (.command (rawWord opSetp id r a b c)) = .ok (.setp id.toNat c.toInt) := by
  rw [decode_setp (opField_rawWord ..), idField_rawWord, cField_rawWord]

theorem decode_rawWord_getp : decode (.command (rawWord opGetp id r a b c)) = .ok (.getp id.toNat) := by
  rw [decode_getp (opField_rawWord ..), idField_rawWord]

theorem decode_rawWord_getstr :
    decode (.command (rawWord opGetstr id r a b c)) = .ok (.getstr id.toNat c.toInt) := by
  rw [decode_getstr (opField_rawWord ..), idField_rawWord, cField_rawWord]

theorem decode_rawWord_getbmp :
    decode (.command (rawWord opGetbmp id r a b c)) = .ok (.getbmp id.toNat c.toInt) := by
  rw [decode_getbmp (opField_rawWord ..), idField_rawWord, cField_rawWord]

end

/-! ### Decoding what the encoder makes -/

theorem toNat_ofNat_of_idFits {id : Nat} (h : idFits id = true) : (BitVec.ofNat 8 id).toNat = id :=
  Nat.mod_eq_of_lt (of_decide_eq_true h)

theorem toNat_ofNat_of_countFits {n : Nat} (h : countFits n = true) : (BitVec.ofNat 32 n).toNat = n :=
  Nat.mod_eq_of_lt (of_decide_eq_true h)

theorem toInt_ofInt_of_valueFits {v : Int} (h : valueFits v = true) : (BitVec.ofInt 32 v).toInt = v := by
  simp only [valueFits, Bool.and_eq_true, decide_eq_true_eq] at h
  exact BitVec.toInt_ofInt_eq_self (by decide) h.1 (Int.lt_of_le_sub_one h.2)

/-- The operands of SETP, GETSTR and GETBMP. -/
theorem id_value_of_fits {id : Nat} {v : Int} (h : (idFits id && valueFits v) = true) :
    (BitVec.ofNat 8 id).toNat = id ∧ (BitVec.ofInt 32 v).toInt = v :=
  (Bool.and_eq_true_iff.1 h).imp toNat_ofNat_of_idFits toInt_ofInt_of_valueFits

/-- Settles O1: a command's operands pass through their fields, a stage operation through its label. -/
theorem decodeEncodeAgree : Obligations.DecodeEncodeAgree := by
  intro i hwf
  cases i with
  | init => exact decode_rawWord_init ..
  | reset => exact decode_rawWord_reset ..
  | process src dst n =>
    exact (decode_rawWord_process ..).trans (by rw [toNat_ofNat_of_countFits hwf])
  | setp id v =>
    obtain ⟨hid, hv⟩ := id_value_of_fits hwf
    exact (decode_rawWord_setp ..).trans (by rw [hid, hv])
  | getp id => exact (decode_rawWord_getp ..).trans (by rw [toNat_ofNat_of_idFits hwf])
  | getstr id v =>
    obtain ⟨hid, hv⟩ := id_value_of_fits hwf
    exact (decode_rawWord_getstr ..).trans (by rw [hid, hv])
  | getbmp id v =>
    obtain ⟨hid, hv⟩ := id_value_of_fits hwf
    exact (decode_rawWord_getbmp ..).trans (by rw [hid, hv])
  | clip | bass1 | bass2 | high | drive | comp | wshape | sat | luti => rfl

/-! ### Unused fields (R47) -/

/-- `rsv` and every field that the format of the word's opcode does not use are zero. -/
def UnusedFieldsZero (w : Command) : Prop :=
  w.extractLsb' 96 16 = 0 ∧
  (opField w ∈ [opInit, opReset] → w.extractLsb' 0 120 = 0) ∧
  (opField w = opProcess → idField w = 0) ∧
  (opField w ∈ [opSetp, opGetstr, opGetbmp] → w.extractLsb' 32 64 = 0) ∧
  (opField w = opGetp → w.extractLsb' 0 96 = 0)

/-- For each format it is enough that the fields it does not use were given as zero. -/
theorem unusedFieldsZero_commandWord {op id : Byte} {a b c : BitVec 32}
    (hnone : op ∈ [opInit, opReset] → id = 0 ∧ a = 0 ∧ b = 0 ∧ c = 0)
    (hprocess : op = opProcess → id = 0)
    (hvalue : op ∈ [opSetp, opGetstr, opGetbmp] → a = 0 ∧ b = 0)
    (hgetp : op = opGetp → a = 0 ∧ b = 0 ∧ c = 0) : UnusedFieldsZero (commandWord op id a b c) := by
  simp only [UnusedFieldsZero, commandWord_eq, opField_rawWord, idField_rawWord, extractLsb'_rsv_rawWord,
    extractLsb'_ab_rawWord, extractLsb'_abc_rawWord, extractLsb'_operands_rawWord]
  refine ⟨trivial, fun h => ?_, hprocess, fun h => ?_, fun h => ?_⟩
  · obtain ⟨rfl, rfl, rfl, rfl⟩ := hnone h; rfl
  · obtain ⟨rfl, rfl⟩ := hvalue h; rfl
  · obtain ⟨rfl, rfl, rfl⟩ := hgetp h; rfl

theorem unusedFieldsZero_encode {i : Instr} {w : Command} (h : encode i = .command w) :
    UnusedFieldsZero w := by
  cases i with
  | clip | bass1 | bass2 | high | drive | comp | wshape | sat | luti => cases h
  | init | reset | process | setp | getp | getstr | getbmp =>
    cases h
    apply unusedFieldsZero_commandWord <;>
      simp [opInit, opReset, opProcess, opSetp, opGetp, opGetstr, opGetbmp]

/-- Settles O3: the decoder reads only the fields `decode_rawWord_…` name, and the encoder emits zeros
in the others. -/
theorem unusedFieldsAreNotDecoded : Obligations.UnusedFieldsAreNotDecoded := by
  refine ⟨fun id r a b c => ⟨?_, ?_, ?_, ?_, ?_, ?_, ?_⟩, fun _ _ => unusedFieldsZero_encode⟩
  · exact (decode_rawWord_init ..).trans (decode_rawWord_init ..).symm
  · exact (decode_rawWord_reset ..).trans (decode_rawWord_reset ..).symm
  · exact (decode_rawWord_process ..).trans (decode_rawWord_process ..).symm
  · exact (decode_rawWord_setp ..).trans (decode_rawWord_setp ..).symm
  · exact (decode_rawWord_getp ..).trans (decode_rawWord_getp ..).symm
  · exact (decode_rawWord_getstr ..).trans (decode_rawWord_getstr ..).symm
  · exact (decode_rawWord_getbmp ..).trans (decode_rawWord_getbmp ..).symm

/-! ### What the decoder yields -/

/-- A slot label yields a stage operation, which has no operand. -/
theorem decodeLabel_wf {l : BitVec 4} {i : Instr} (h : decodeLabel l = .ok i) : i.wf = true := by
  unfold decodeLabel at h
  split at h <;> cases h <;> rfl

/-- Settles O4: a command word by `decodeCommand_wf`, a slot label by `decodeLabel_wf`. -/
theorem decodedOperationsAreWellFormed : Obligations.DecodedOperationsAreWellFormed
  | .command _, _, h => Machine.decodeCommand_wf h
  | .label _, _, h => decodeLabel_wf h

end Sys2Proof
end

section
/-! PROOFS. The fields of a response word, the answer to a reserved opcode, and what a command on port C can
do (30_encoding.md R46, R48, R49). -/

namespace Sys2Proof.Machine

/-! ### Response words (R49) -/

section
open BitVec
variable (status op : Byte) (value : BitVec 32) (str : BitVec 128)

theorem responseWord_status : (responseWord status op value str).extractLsb' 184 8 = status :=
  (extractLsb'_append_eq_of_le (by decide)).trans <| (extractLsb'_append_eq_of_le (by decide)).trans <|
    (extractLsb'_append_eq_of_le (by decide)).trans extractLsb'_append_eq_left

theorem responseWord_reserved : (responseWord status op value str).extractLsb' 160 16 = 0#16 :=
  (extractLsb'_append_eq_of_le (by decide)).trans <| (extractLsb'_append_eq_of_le (by decide)).trans
    extractLsb'_append_eq_right

theorem responseWord_value : (responseWord status op value str).extractLsb' 128 32 = value :=
  (extractLsb'_append_eq_of_le (by decide)).trans extractLsb'_append_eq_right

theorem responseWord_str : (responseWord status op value str).extractLsb' 0 128 = str :=
  extractLsb'_append_eq_right

end

/-- Settles O6: one lemma for each field. -/
theorem responseWordLayout : Obligations.ResponseWordLayout := fun _ _ _ _ =>
  ⟨responseWord_status .., responseWord_opecho .., responseWord_reserved .., responseWord_value ..,
    responseWord_str ..⟩

/-! ### Reserved opcodes (R46) -/

theorem serveCommand_reserved {w : Command} (p : Port) (s : State) (h : opField w ∉ commandOpcodes) :
    serveCommand p w s =
      .next (answered { s with serving := p } (responseWord statusUnknownOp (opField w) 0 0)) := by
  rw [serveCommand, decode_reserved h]
  exact congrArg _ (respond_eq ..)

/-- With port A alone able to act and no PROCESS running, the step serves the command waiting there. -/
theorem step_serveCommand_A {s : State} {w : Command} (hA : onlyAEnabled s) (hb : s.seq.busy = false)
    (hw : s.portA.pend = some w) : step s = serveCommand .A w s := by
  have hp : s.portA.pend ≠ none := by simp [hw]
  rw [step_onlyA hA (.inr hp) (.inl hp), serveA, hb, hw]
  rfl

/-- With port C alone able to act, the step serves the command waiting there. -/
theorem step_serveCommand_C {s : State} {w : Command} (hC : onlyCEnabled s) (hw : s.portC.pend = some w) :
    step s = serveCommand .C w s := by
  rw [step_onlyC hC (by simp [hw]), serveC, hw]

/-- Settles O9: the step serves the waiting word, and serving a reserved opcode only answers it. -/
theorem reservedOpcodeIsAnswered : Obligations.ReservedOpcodeIsAnswered :=
  ⟨fun s _ hA hb hw hop => (step_serveCommand_A hA hb hw).trans (serveCommand_reserved .A s hop),
    fun s _ hC hw hop => (step_serveCommand_C hC hw).trans (serveCommand_reserved .C s hop)⟩

/-! ### Commands on port C (R48) -/

/-- A command on port C is answered in one step, having written the parameter registers and the string buffer
at most. -/
theorem serveCommand_C (w : Command) (s : State) :
    ∃ par strbuf r, serveCommand .C w s =
      .next (answered { s with serving := .C, par := par, strbuf := strbuf } r) ∧
        r.extractLsb' 176 8 = opField w := by
  rcases serveCommand_cases .C w s with ⟨status, value, str, e⟩ | ⟨-, id, v, -, e⟩ | ⟨-, id, v, -, e⟩ |
    ⟨hA, -⟩ | ⟨hA, -⟩
  · exact ⟨_, _, _, e, responseWord_opecho ..⟩
  · exact ⟨_, _, _, e, responseWord_opecho ..⟩
  · exact ⟨_, _, _, e, responseWord_opecho ..⟩
  · cases hA
  · cases hA

/-- Settles O60: `serveCommand_C` for any word, `serveCommand_reserved` for a reserved opcode. -/
theorem portCCommandsLeaveAudioStateAlone : Obligations.PortCCommandsLeaveAudioStateAlone := by
  intro s w
  obtain ⟨par, strbuf, r, ht, hop⟩ := serveCommand_C w s
  exact ⟨⟨_, r, ht, rfl, fun _ => rfl, rfl, rfl, rfl, rfl, rfl, rfl, hop⟩, serveCommand_reserved .C s⟩

end Sys2Proof.Machine
end

section
/-! PROOFS. Which results are NaNs: every arithmetic operation answers the canonical one of its format
(40_numerics.md R60). -/

namespace Sys2Proof.Machine

/-! ### Patterns of a format -/

/-- If the pattern is a NaN, it is the canonical one (R60). -/
def canonicalPat (f : Fmt) (p : Nat) : Prop := nanPat f p = true → p = qnanPat f

section
variable {f : Fmt} {a b p m : Nat} {neg : Bool} (hf : infMag f < 2 ^ (f.width - 1))

theorem canonicalPat_qnanPat : canonicalPat f (qnanPat f) := fun _ => rfl

theorem canonicalPat_of_not_nanPat (h : nanPat f p = false) : canonicalPat f p := by
  simp [canonicalPat, h]

include hf

theorem canonicalPat_packPat (h : m ≤ infMag f) : canonicalPat f (packPat f neg m) := by
  have hm : m % 2 ^ (f.width - 1) = m := Nat.mod_eq_of_lt (h.trans_lt hf)
  refine canonicalPat_of_not_nanPat ?_
  cases neg <;> simpa [nanPat, magPat, packPat, hm] using h

theorem canonicalPat_roundMag {num den : Nat} : canonicalPat f (packPat f neg (roundMag f num den)) :=
  canonicalPat_packPat hf (roundMag_le_infMag ..)

theorem canonicalPat_addPat : canonicalPat f (addPat f a b) := by
  unfold addPat
  split
  · exact canonicalPat_qnanPat
  next hn =>
  obtain ⟨ha, hb⟩ : nanPat f a = false ∧ nanPat f b = false := by simpa using hn
  split
  · split
    · exact canonicalPat_qnanPat
    · exact canonicalPat_of_not_nanPat ha
  split
  · exact canonicalPat_of_not_nanPat hb
  dsimp only
  split
  · exact canonicalPat_packPat hf (Nat.zero_le _)
  · exact canonicalPat_roundMag hf

theorem canonicalPat_mulPat : canonicalPat f (mulPat f a b) := by
  unfold mulPat
  split
  · exact canonicalPat_qnanPat
  split
  · split
    · exact canonicalPat_qnanPat
    · exact canonicalPat_packPat hf le_rfl
  · exact canonicalPat_roundMag hf

theorem canonicalPat_divPat : canonicalPat f (divPat f a b) := by
  unfold divPat
  split
  · exact canonicalPat_qnanPat
  split
  · split
    · exact canonicalPat_qnanPat
    · exact canonicalPat_packPat hf le_rfl
  split
  · exact canonicalPat_packPat hf (Nat.zero_le _)
  split
  · split
    · exact canonicalPat_qnanPat
    · exact canonicalPat_packPat hf le_rfl
  · exact canonicalPat_roundMag hf

end

/-! ### Words -/

/-- If the word is a NaN, it is `QNAN32` (R60). -/
def canonical (r : Word) : Prop := isNaN r = true → r = QNAN32

/-- If the word is a NaN, it is `QNAN64` (R60). -/
def canonical64 (r : DWord) : Prop := nanPat binary64 r.toNat = true → r = QNAN64

/-- Cutting a pattern to its format's width leaves its magnitude. -/
theorem magPat_toNat_ofNat (f : Fmt) (p : Nat) : magPat f (BitVec.ofNat f.width p).toNat = magPat f p := by
  rw [magPat, BitVec.toNat_ofNat, Nat.mod_mod_of_dvd p (pow_dvd_pow 2 (Nat.sub_le f.width 1)), magPat]

theorem nanPat_toNat_ofNat (f : Fmt) (p : Nat) : nanPat f (BitVec.ofNat f.width p).toNat = nanPat f p :=
  congrArg (fun m => decide (infMag f < m)) (magPat_toNat_ofNat f p)

theorem canonical_ofNat {p : Nat} (h : canonicalPat binary32 p) : canonical (BitVec.ofNat 32 p) := by
  intro hn
  rw [h ((nanPat_toNat_ofNat binary32 p).symm.trans hn)]
  decide

theorem canonical64_ofNat {p : Nat} (h : canonicalPat binary64 p) : canonical64 (BitVec.ofNat 64 p) := by
  intro hn
  rw [h ((nanPat_toNat_ofNat binary64 p).symm.trans hn)]
  decide

theorem infMag_lt_binary32 : infMag binary32 < 2 ^ 31 := by decide
theorem infMag_lt_binary64 : infMag binary64 < 2 ^ 63 := by decide

theorem canonical_of_not_isNaN {r : Word} (h : isNaN r = false) : canonical r := by
  simp [canonical, h]

theorem canonical_fadd (a b : Word) : canonical (fadd a b) :=
  canonical_ofNat (canonicalPat_addPat infMag_lt_binary32)

theorem canonical_fmul (a b : Word) : canonical (fmul a b) :=
  canonical_ofNat (canonicalPat_mulPat infMag_lt_binary32)

theorem canonical_fdiv (a b : Word) : canonical (fdiv a b) :=
  canonical_ofNat (canonicalPat_divPat infMag_lt_binary32)

theorem canonical_ffloor (a : Word) : canonical (ffloor a) := by
  unfold ffloor
  split
  · exact fun _ => rfl
  next hn =>
  split
  · exact canonical_of_not_isNaN (by simpa using hn)
  · exact canonical_ofNat (canonicalPat_roundMag infMag_lt_binary32)

theorem canonical_d2f (c : DWord) : canonical (d2f c) := by
  unfold d2f
  split
  · exact fun _ => rfl
  · refine canonical_ofNat (canonicalPat_packPat infMag_lt_binary32 ?_)
    split
    · exact le_rfl
    · exact roundMag_le_infMag ..

theorem canonical64_f2d (a : Word) : canonical64 (f2d a) := by
  unfold f2d
  split
  · exact fun _ => rfl
  · refine canonical64_ofNat (canonicalPat_packPat infMag_lt_binary64 ?_)
    split
    · exact le_rfl
    · exact roundMag_le_infMag ..

theorem canonical_lutiValue (rom : List Word) (x : Word) : canonical (lutiValue rom x) := by
  unfold lutiValue
  split
  · exact fun _ => rfl
  · exact canonical_fadd _ _

/-! ### Elementary functions -/

section
open Config
variable {eps : ℚ} {f : Word → Word}

theorem canonical_tanh (h : TanhConforms eps f) (a : Word) : canonical (f a) := by
  cases hn : isNaN a
  · exact canonical_of_not_isNaN ((fle_iff _ _).1 (h.bound a hn).2).1
  · exact fun _ => h.nan a hn

theorem canonical_sin (h : SinConforms eps f) (a : Word) : canonical (f a) := by
  cases hfin : isFinite a
  · exact fun _ => h.nan a hfin
  · exact canonical_of_not_isNaN ((fle_iff _ _).1 (h.bound a hfin).2).1

end

/-- Settles O44: one lemma for each operation; for `POW32` it is the platform's own property. -/
theorem nanResultsAreCanonical : Obligations.NaNResultsAreCanonical := fun a b _ _ _ s =>
  ⟨canonical_fadd a b, canonical_fadd a (fneg b), canonical_fmul a b, canonical_fdiv a b, canonical_ffloor a,
    canonical_ofNat (canonicalPat_roundMag infMag_lt_binary32), canonical_d2f _, canonical64_f2d a,
    canonical64_ofNat (canonicalPat_addPat infMag_lt_binary64),
    canonical64_ofNat (canonicalPat_mulPat infMag_lt_binary64),
    canonical_tanh Config.platform.tanhOk a, canonical_sin Config.platform.sinOk a,
    Config.platform.powOk.canonical a b, canonical_lutiValue s.rom a⟩

end Sys2Proof.Machine
end

section
/-! PROOFS. The four operations case by case: NaNs, infinities, zeros and their signs (40_numerics.md R56,
R60). -/

namespace Sys2Proof.Machine

/-! ### The operations on words -/

/-- The word of a sign and the magnitude nearest to `num / den` quanta. -/
def roundedWord (neg : Bool) (num den : Nat) : Word :=
  BitVec.ofNat 32 (packPat binary32 neg (roundMag binary32 num den))

/-- A zero of either sign. -/
def zeroWord (neg : Bool) : Word := if neg then negZero else posZero

/-- An infinity of either sign. -/
def infWord (neg : Bool) : Word := if neg then negInf else posInf

theorem ofNat_packPat_zero (neg : Bool) : BitVec.ofNat 32 (packPat binary32 neg 0) = zeroWord neg := by
  cases neg <;> rfl

theorem ofNat_packPat_infMag (neg : Bool) :
    BitVec.ofNat 32 (packPat binary32 neg (infMag binary32)) = infWord neg := by
  cases neg <;> rfl

theorem ofNat_qnanPat : BitVec.ofNat 32 (qnanPat binary32) = QNAN32 := rfl

section
variable (a b : Word)

theorem fadd_eq : fadd a b =
    if isNaN a || isNaN b then QNAN32
    else if isInf a then if isInf b && (fsign a != fsign b) then QNAN32 else a
    else if isInf b then b
    else if fquanta a + fquanta b = 0 then zeroWord (fsign a && fsign b)
    else roundedWord (decide (fquanta a + fquanta b < 0)) (fquanta a + fquanta b).natAbs 1 := by
  rw [← ofNat_packPat_zero]
  unfold fadd addPat
  simp only [apply_ite (BitVec.ofNat 32), BitVec.ofNat_toNat, BitVec.setWidth_eq, ofNat_qnanPat]
  rfl

theorem fmul_eq : fmul a b =
    if isNaN a || isNaN b then QNAN32
    else if isInf a || isInf b then
      if feq0 a ∨ feq0 b then QNAN32 else infWord (fsign a != fsign b)
    else roundedWord (fsign a != fsign b) (quanta binary32 (fmag a) * quanta binary32 (fmag b)) (2 ^ 149) := by
  rw [← ofNat_packPat_infMag]
  unfold fmul mulPat
  simp only [apply_ite (BitVec.ofNat 32), ofNat_qnanPat, oneExp_binary32, feq0, decide_eq_true_eq]
  rfl

theorem fdiv_eq : fdiv a b =
    if isNaN a || isNaN b then QNAN32
    else if isInf a then if isInf b then QNAN32 else infWord (fsign a != fsign b)
    else if isInf b then zeroWord (fsign a != fsign b)
    else if feq0 b then if feq0 a then QNAN32 else infWord (fsign a != fsign b)
    else roundedWord (fsign a != fsign b) (quanta binary32 (fmag a) * 2 ^ 149) (quanta binary32 (fmag b)) := by
  rw [← ofNat_packPat_infMag, ← ofNat_packPat_zero]
  unfold fdiv divPat
  simp only [apply_ite (BitVec.ofNat 32), ofNat_qnanPat, oneExp_binary32, feq0, decide_eq_true_eq]
  rfl

end

/-! ### Special cases -/

theorem isNaN_of_isInf {x : Word} (h : isInf x = true) : isNaN x = false := by
  rcases isInf_cases h with rfl | rfl <;> decide

theorem feq0_of_isInf {x : Word} (h : isInf x = true) : feq0 x = false := by
  rcases isInf_cases h with rfl | rfl <;> decide

theorem feq0_infWord (neg : Bool) : feq0 (infWord neg) = false := by
  cases neg <;> decide

theorem eq_zeroWord_of_feq0 {x : Word} {neg : Bool} (h : feq0 x = true) (hs : fsign x = neg) :
    x = zeroWord neg := by
  rcases feq0_cases h with rfl | rfl <;> (rw [← hs]; decide)

theorem fsign_roundedWord (neg : Bool) (num den : Nat) : fsign (roundedWord neg num den) = neg :=
  fsign_packPat (roundMag_le_infMag ..)

theorem fvalue_fneg (x : Word) : fvalue (fneg x) = -fvalue x := by
  rw [fvalue, fquanta_fneg, Int.cast_neg, neg_div, fvalue]

section
variable {a b : Word}

theorem arith_of_isNaN (h : isNaN a = true ∨ isNaN b = true) :
    fadd a b = QNAN32 ∧ fsub a b = QNAN32 ∧ fmul a b = QNAN32 ∧ fdiv a b = QNAN32 := by
  rcases h with h | h <;> simp [fadd_eq, fmul_eq, fdiv_eq, fsub, isNaN_fneg, h]

section
variable (ha : isInf a = true)
include ha

theorem arith_of_isInf_isInf (hb : isInf b = true) :
    fadd a b = (if fsign a != fsign b then QNAN32 else a) ∧
      fsub a b = (if fsign a != fsign b then a else QNAN32) ∧
      fmul a b = infWord (fsign a != fsign b) ∧ fdiv a b = QNAN32 := by
  simp [fadd_eq, fmul_eq, fdiv_eq, fsub, isInf_fneg, fsign_fneg, isNaN_of_isInf, feq0_of_isInf, ha,
    hb]

theorem arith_of_isInf_isFinite (hb : isFinite b = true) :
    fadd a b = a ∧ fadd b a = a ∧ fsub a b = a ∧ fsub b a = fneg a ∧
      fdiv a b = infWord (fsign a != fsign b) ∧ fdiv b a = zeroWord (fsign a != fsign b) ∧
      fmul a b = (if feq0 b then QNAN32 else infWord (fsign a != fsign b)) ∧
      fmul b a = (if feq0 b then QNAN32 else infWord (fsign a != fsign b)) := by
  obtain ⟨hbn, hbi⟩ := (isFinite_iff b).1 hb
  simp [fadd_eq, fmul_eq, fdiv_eq, fsub, isNaN_fneg, isInf_fneg, isNaN_of_isInf, feq0_of_isInf, ha,
    hbn, hbi, bne_comm (a := fsign b)]

end

section
variable (ha : isFinite a = true) (hb : isFinite b = true)
include ha hb

theorem fadd_zero (h : fvalue a + fvalue b = 0) : fadd a b = zeroWord (fsign a && fsign b) := by
  obtain ⟨han, hai⟩ := (isFinite_iff a).1 ha
  obtain ⟨hbn, hbi⟩ := (isFinite_iff b).1 hb
  have hz : fquanta a + fquanta b = 0 := by
    rw [fvalue, fvalue, ← add_div, div_eq_zero_iff, or_iff_left (by positivity)] at h
    exact_mod_cast h
  simp [fadd_eq, han, hai, hbn, hbi, hz]

theorem fmul_finite : fmul a b =
    roundedWord (fsign a != fsign b) (quanta binary32 (fmag a) * quanta binary32 (fmag b)) (2 ^ 149) := by
  obtain ⟨han, hai⟩ := (isFinite_iff a).1 ha
  obtain ⟨hbn, hbi⟩ := (isFinite_iff b).1 hb
  simp [fmul_eq, han, hai, hbn, hbi]

theorem fdiv_zero (h : feq0 b = true) :
    fdiv a b = if feq0 a then QNAN32 else infWord (fsign a != fsign b) := by
  obtain ⟨han, hai⟩ := (isFinite_iff a).1 ha
  obtain ⟨hbn, hbi⟩ := (isFinite_iff b).1 hb
  simp [fdiv_eq, han, hai, hbn, hbi, h]

theorem fdiv_finite (h : feq0 b = false) : fdiv a b =
    roundedWord (fsign a != fsign b) (quanta binary32 (fmag a) * 2 ^ 149) (quanta binary32 (fmag b)) := by
  obtain ⟨han, hai⟩ := (isFinite_iff a).1 ha
  obtain ⟨hbn, hbi⟩ := (isFinite_iff b).1 hb
  simp [fdiv_eq, han, hai, hbn, hbi, h]

theorem fdiv_feq0 (h : feq0 (fdiv a b) = true) : fdiv a b = zeroWord (fsign a != fsign b) := by
  cases hz : feq0 b
  · refine eq_zeroWord_of_feq0 h ?_
    rw [fdiv_finite ha hb hz, fsign_roundedWord]
  · rw [fdiv_zero ha hb hz] at h
    split at h
    · exact absurd h (by decide)
    · simp [feq0_infWord] at h

theorem arith_of_isFinite_isFinite :
    (fvalue a + fvalue b = 0 → fadd a b = zeroWord (fsign a && fsign b)) ∧
      (fvalue a - fvalue b = 0 → fsub a b = zeroWord (fsign a && !fsign b)) ∧
      (feq0 (fmul a b) = true → fmul a b = zeroWord (fsign a != fsign b)) ∧
      (feq0 (fdiv a b) = true → fdiv a b = zeroWord (fsign a != fsign b)) ∧
      (feq0 b = true → fdiv a b = if feq0 a then QNAN32 else infWord (fsign a != fsign b)) := by
  refine ⟨fadd_zero ha hb, fun h => ?_, fun h => eq_zeroWord_of_feq0 h ?_, fdiv_feq0 ha hb, fdiv_zero ha hb⟩
  · rw [← fsign_fneg]
    refine fadd_zero ha (by rw [isFinite_fneg, hb]) ?_
    rw [fvalue_fneg, ← sub_eq_add_neg, h]
  · rw [fmul_finite ha hb, fsign_roundedWord]

end
end

/-- Settles O43: a NaN operand, two infinities, one infinity, two finite operands. -/
theorem arithmeticSpecialCases : Obligations.ArithmeticSpecialCases := fun _ _ =>
  ⟨arith_of_isNaN, arith_of_isInf_isInf, arith_of_isInf_isFinite, arith_of_isFinite_isFinite⟩

end Sys2Proof.Machine
end

section
/-! PROOFS. Rounding gives the nearest value, ties to even, and an infinity from the overflow bound on
(40_numerics.md R56, R61). -/

namespace Sys2Proof.Machine

/-! ### The nearest integer -/

/-- The rounded quotient is half a unit off at most, and an even one where it is just half a unit off. -/
theorem roundTiesToEven_dist (n : Nat) {d : Nat} (hd : 0 < d) :
    2 * |(roundTiesToEven n d * d : Int) - n| < d ∨
      (2 * |(roundTiesToEven n d * d : Int) - n| = d ∧ roundTiesToEven n d % 2 = 0) := by
  have hn : (n : Int) = (n / d : Nat) * d + (n % d : Nat) := by
    exact_mod_cast (Nat.div_add_mod' n d).symm
  have hr := Nat.mod_lt n hd
  unfold roundTiesToEven
  generalize n / d = q at hn ⊢
  generalize n % d = r at hn hr ⊢
  have hdown : ((q : Nat) * d : Int) - n = -r := by rw [hn]; ring
  have hup : (((q + 1 : Nat) : Int) * d) - n = d - r := by rw [hn]; push_cast; ring
  split
  · left; rw [hdown, abs_neg, Nat.abs_cast]; omega
  split
  · left; rw [hup, abs_of_nonneg (by omega)]; omega
  · right
    rcases Nat.mod_two_eq_zero_or_one q with hq | hq <;> rw [hq]
    · rw [Nat.add_zero, hdown, abs_neg, Nat.abs_cast]; omega
    · rw [hup, abs_of_nonneg (by omega)]; omega

/-- `r` is nearer to `x` than `w` is, or as near and `m` is even. -/
def nearer (m : Nat) (x r w : Int) : Prop := |r - x| < |w - x| ∨ (|r - x| = |w - x| ∧ m % 2 = 0)

theorem nearer_neg {m : Nat} {x r w : Int} : nearer m (-x) (-r) (-w) ↔ nearer m x r w := by
  have habs (y z : Int) : |-y - -z| = |y - z| := by rw [neg_sub_neg, abs_sub_comm]
  rw [nearer, nearer, habs, habs]

theorem roundTiesToEven_nearer (n : Nat) {d j : Nat} (hd : 0 < d) (hj : j ≠ roundTiesToEven n d) :
    nearer (roundTiesToEven n d) n (roundTiesToEven n d * d) (j * d) := by
  have hdist := roundTiesToEven_dist n hd
  have hstep : (d : Int) ≤ |(j * d : Int) - roundTiesToEven n d * d| := by
    rw [← sub_mul, abs_mul, Nat.abs_cast]
    exact le_mul_of_one_le_left (by omega) (Int.one_le_abs (by omega))
  have htri := abs_sub_le (j * d : Int) n (roundTiesToEven n d * d)
  rw [abs_sub_comm (n : Int)] at htri
  unfold nearer
  omega

/-! ### Magnitudes -/

/-- The quanta of a pattern are a multiple of any spacing, or lie below the first binade with that spacing. -/
theorem dvd_quanta_or_lt (k m : Nat) :
    2 ^ k ∣ quanta binary32 m ∨ quanta binary32 m < 2 ^ 23 * 2 ^ k := by
  unfold quanta
  dsimp only
  split
  · next h =>
    right
    calc m < 2 ^ 23 := by omega
      _ ≤ 2 ^ 23 * 2 ^ k := Nat.le_mul_of_pos_right _ (by positivity)
  · rcases Nat.lt_or_ge (m / 2 ^ 23 - 1) k with h | h
    · right
      calc (2 ^ 23 + m % 2 ^ 23) * 2 ^ (m / 2 ^ 23 - 1)
          < 2 ^ 24 * 2 ^ (m / 2 ^ 23 - 1) := Nat.mul_lt_mul_of_pos_right (by omega) (by positivity)
        _ = 2 ^ 23 * 2 ^ (m / 2 ^ 23 - 1 + 1) := by ring
        _ ≤ 2 ^ 23 * 2 ^ k := Nat.mul_le_mul_left _ (Nat.pow_le_pow_right (by decide) h)
    · exact .inl (Dvd.dvd.mul_left (pow_dvd_pow 2 h) _)

theorem quanta_infMag : quanta binary32 (infMag binary32) = 2 ^ 24 * 2 ^ 253 := by decide

section
variable {num den : Nat} (hlt : num < 2 ^ 24 * 2 ^ 253 * den)
include hlt

/-- Below `2^128` a rounded magnitude is the nearest multiple of the spacing `2^k` of its binade. -/
theorem roundMag_binade : ∃ k, k = Nat.log2 (num / den) - 23 ∧
    roundMag binary32 num den = k * 2 ^ 23 + roundTiesToEven num (den * 2 ^ k) ∧
    quanta binary32 (roundMag binary32 num den) = roundTiesToEven num (den * 2 ^ k) * 2 ^ k ∧
    (k ≠ 0 → 2 ^ 23 * 2 ^ k * den ≤ num) := by
  obtain ⟨k, hk⟩ : ∃ k, k = Nat.log2 (num / den) - 23 := ⟨_, rfl⟩
  have hq : num / den < 2 ^ 24 * 2 ^ 253 := Nat.div_lt_of_lt_mul (by rwa [Nat.mul_comm])
  have hk253 : k ≤ 253 := by
    have : Nat.log2 (num / den) ≤ 276 := by
      by_contra h
      have h0 : num / den ≠ 0 := by rintro h0; rw [h0] at h; exact h (by decide)
      have := (Nat.le_log2 h0).1 (Nat.lt_of_not_le h)
      omega
    omega
  obtain ⟨hlow, hhigh⟩ := roundTiesToEven_significand binary32 num den hk
  have hM : roundMag binary32 num den = k * 2 ^ 23 + roundTiesToEven num (den * 2 ^ k) := by
    rw [roundMag, ← hk, infMag_binary32]
    dsimp only at hhigh ⊢
    omega
  refine ⟨k, hk, hM, by rw [hM]; exact quanta_binade binary32 hlow hhigh, fun h0 => ?_⟩
  have hne : num / den ≠ 0 := by rintro h; rw [h] at hk; exact h0 hk
  calc 2 ^ 23 * 2 ^ k * den = 2 ^ (23 + k) * den := by rw [pow_add]
    _ ≤ 2 ^ Nat.log2 (num / den) * den :=
      Nat.mul_le_mul_right _ (Nat.pow_le_pow_right (by decide) (by omega))
    _ ≤ num / den * den := Nat.mul_le_mul_right _ (Nat.log2_self_le hne)
    _ ≤ num := Nat.div_mul_le_self ..

/-- No magnitude is nearer than the rounded one; only an even one has another as near. -/
theorem roundMag_nearer {m : Nat} (hden : 0 < den)
    (hm : quanta binary32 m ≠ quanta binary32 (roundMag binary32 num den)) :
    nearer (roundMag binary32 num den) num (quanta binary32 (roundMag binary32 num den) * den)
      (quanta binary32 m * den) := by
  obtain ⟨k, -, hM, hQ, hbin⟩ := roundMag_binade hlt
  have heven : roundMag binary32 num den % 2 = roundTiesToEven num (den * 2 ^ k) % 2 := by omega
  have hD : 0 < den * 2 ^ k := by positivity
  have hnear (j : Nat) := roundTiesToEven_nearer num (j := j) hD
  rw [hQ] at hm ⊢
  generalize roundTiesToEven num (den * 2 ^ k) = R at *
  have scale (j : Nat) : ((j * 2 ^ k : Nat) : Int) * den = j * ((den * 2 ^ k : Nat) : Int) := by
    push_cast; ring
  rw [scale]
  simp only [nearer, heven] at hnear ⊢
  by_cases hdvd : 2 ^ k ∣ quanta binary32 m
  · obtain ⟨j, hj⟩ := hdvd
    rw [hj, Nat.mul_comm (2 ^ k) j] at hm ⊢
    rw [scale]
    exact hnear j fun h => hm (by rw [h])
  · have hB := hbin (by rintro rfl; exact hdvd (by simp))
    have hmB : quanta binary32 m * den < 2 ^ 23 * 2 ^ k * den :=
      Nat.mul_lt_mul_of_pos_right ((dvd_quanta_or_lt k m).resolve_left hdvd) hden
    have hR : |(R * (den * 2 ^ k : Nat) : Int) - num| ≤ |((2 ^ 23 * 2 ^ k : Nat) : Int) * den - num| := by
      rw [scale]
      rcases eq_or_ne (2 ^ 23) R with rfl | hne
      · exact le_rfl
      · exact (hnear _ hne).elim le_of_lt fun h => h.1.le
    left
    refine hR.trans_lt ?_
    zify at hB hmB
    push_cast
    rw [abs_of_nonpos (by linarith), abs_of_nonpos (by linarith)]
    linarith

end

theorem signedNat_false (n : Nat) : signedNat false n = n := rfl

theorem signedNat_true (n : Nat) : signedNat true n = -n := rfl

section
variable {num den : Nat} (hden : 0 < den)
include hden

/-- From halfway between the largest finite magnitude and `2^128` on, rounding gives infinity. -/
theorem roundMag_overflow (h : (2 ^ 25 - 1) * 2 ^ 252 * den ≤ num) :
    roundMag binary32 num den = infMag binary32 := by
  have hbound : roundMag binary32 ((2 ^ 25 - 1) * 2 ^ 252) 1 = infMag binary32 := by decide
  refine (roundMag_le_infMag ..).antisymm ?_
  rw [← hbound]
  exact roundMag_mono binary32 one_pos hden (by rwa [Nat.mul_one])

theorem roundMag_lt_infMag (h : num < (2 ^ 25 - 1) * 2 ^ 252 * den) :
    roundMag binary32 num den < infMag binary32 := by
  refine (roundMag_le_infMag ..).lt_of_ne fun he => ?_
  have hmax : quanta binary32 (infMag binary32 - 1) = (2 ^ 24 - 1) * 2 ^ 253 := by decide
  have hn := roundMag_nearer (num := num) (m := infMag binary32 - 1) (by omega) hden
    (by rw [he, hmax, quanta_infMag]; decide)
  rw [he, hmax, quanta_infMag] at hn
  have habs := hn.elim le_of_lt fun h => h.1.le
  zify at h hden
  rcases le_abs.1 ((le_abs_self _).trans habs) with hle | hle <;> push_cast at h hle <;> linarith

/-- No magnitude of either sign is nearer than the rounded one. -/
theorem roundMag_nearer_signed (h : num < 2 ^ 24 * 2 ^ 253 * den) {s : Bool} {m : Nat}
    (hm : signedNat s (quanta binary32 m) ≠ quanta binary32 (roundMag binary32 num den)) :
    nearer (roundMag binary32 num den) num (quanta binary32 (roundMag binary32 num den) * den)
      (signedNat s (quanta binary32 m) * den) := by
  have hnear (m : Nat) := roundMag_nearer (m := m) h hden
  generalize roundMag binary32 num den = r at *
  cases s
  · exact hnear m fun he => hm (by rw [he, signedNat_false])
  have hz : |((quanta binary32 0 : Nat) : Int) * den - num| = num := by simp [quanta_zero]
  have hopp : |signedNat true (quanta binary32 m) * den - num| = num + (quanta binary32 m * den : Nat) := by
    rw [signedNat, if_pos rfl, abs_of_nonpos (by nlinarith)]
    push_cast
    ring
  unfold nearer at hnear ⊢
  rcases eq_or_ne (quanta binary32 r) 0 with hr | hr
  · have hm0 : quanta binary32 m ≠ 0 := fun h0 => hm (by rw [h0, hr]; rfl)
    have hpos : 0 < quanta binary32 m * den := Nat.mul_pos (Nat.pos_of_ne_zero hm0) hden
    rw [← quanta_zero] at hr
    rw [hr, hz, hopp]
    omega
  · have := hnear 0 (by rw [quanta_zero]; exact hr.symm)
    rw [hz] at this
    rw [hopp]
    omega

/-- The rounded magnitude with the sign of the number rounded is nearest among the signed magnitudes. -/
theorem signed_nearer (h : num < 2 ^ 24 * 2 ^ 253 * den) {neg s : Bool} {m : Nat}
    (hm : signedNat s (quanta binary32 m) ≠ signedNat neg (quanta binary32 (roundMag binary32 num den))) :
    nearer (roundMag binary32 num den) (signedNat neg num)
      (signedNat neg (quanta binary32 (roundMag binary32 num den)) * den)
      (signedNat s (quanta binary32 m) * den) := by
  cases neg
  · simp only [signedNat_false] at hm ⊢
    exact roundMag_nearer_signed hden h hm
  · have hs : signedNat (!s) (quanta binary32 m) ≠ quanta binary32 (roundMag binary32 num den) := by
      rw [signedNat_not]
      exact fun he => hm (by rw [signedNat_true, ← he, neg_neg])
    rw [← nearer_neg, ← neg_mul, ← neg_mul, ← signedNat_not, ← signedNat_not, ← signedNat_not,
      Bool.not_true, signedNat_false, signedNat_false]
    exact roundMag_nearer_signed hden h hs

end

/-! ### Words -/

theorem isFinite_iff_fmag (x : Word) : isFinite x = true ↔ fmag x < infMag binary32 := by
  simp [isFinite, fmag]

theorem isNearestEven_of_nearer {r : Word} {v : ℚ} {x : Int} {den : Nat} (hden : 0 < den)
    (hv : v * (2 ^ 149 * den) = x) (hfin : isFinite r = true)
    (h : ∀ w, fquanta w ≠ fquanta r → nearer r.toNat x (fquanta r * den) (fquanta w * den)) :
    isNearestEven r v := by
  have hD : (0 : ℚ) < 2 ^ 149 * den := by positivity
  have hdiff (w : Word) : fvalue w - v = ((fquanta w * den - x : Int) : ℚ) / (2 ^ 149 * den) := by
    rw [eq_div_iff hD.ne', sub_mul, hv, fvalue]
    push_cast
    field_simp
  have hdist (w : Word) : |fvalue w - v| = ((|fquanta w * den - x| : Int) : ℚ) / (2 ^ 149 * den) := by
    rw [hdiff, abs_div, abs_of_pos hD, Int.cast_abs]
  refine ⟨hfin, fun w _ hne => ?_⟩
  rw [hdist, hdist, div_lt_div_iff_of_pos_right hD, div_left_inj' hD.ne', Int.cast_lt, Int.cast_inj]
  exact h w fun he => hne (by rw [fvalue, fvalue, he])

/-- What IEEE 754 asks of a result `r` whose exact value is `v` (R56). -/
def isRounded (r : Word) (v : ℚ) : Prop :=
  (|v| < overflowBound → isNearestEven r v) ∧
    (overflowBound ≤ |v| → r = if v < 0 then negInf else posInf)

theorem roundedWord_parity (neg : Bool) (num den : Nat) :
    (roundedWord neg num den).toNat % 2 = roundMag binary32 num den % 2 := by
  rw [roundedWord, packPat_toNat (roundMag_le_infMag ..)]
  split <;> omega

theorem fmag_roundedWord (neg : Bool) (num den : Nat) :
    fmag (roundedWord neg num den) = roundMag binary32 num den :=
  fmag_packPat (roundMag_le_infMag ..)

theorem fquanta_roundedWord (neg : Bool) (num den : Nat) :
    fquanta (roundedWord neg num den) = signedNat neg (quanta binary32 (roundMag binary32 num den)) := by
  rw [fquanta_eq_signedNat, fsign_roundedWord, fmag_roundedWord]

section
variable {neg : Bool} {num den : Nat} {v : ℚ} (hden : 0 < den)
  (hv : v * (2 ^ 149 * den) = signedNat neg num)
include hden hv

theorem overflowBound_le_iff : overflowBound ≤ |v| ↔ (2 ^ 25 - 1) * 2 ^ 252 * den ≤ num := by
  have hD : (0 : ℚ) < 2 ^ 149 * den := by positivity
  have hnum : |v| * (2 ^ 149 * den) = num := by
    have h := congrArg abs hv
    rw [abs_mul, abs_of_pos hD] at h
    rw [h, ← Int.cast_abs]
    cases neg <;> simp [signedNat]
  have hbound : overflowBound * (2 ^ 149 * den) = ((2 ^ 25 - 1) * 2 ^ 252 * den : Nat) := by
    rw [overflowBound]
    push_cast
    ring
  rw [← mul_le_mul_iff_left₀ hD, hnum, hbound, Nat.cast_le]

theorem neg_iff_of_mul_eq_signedNat (hnum : 0 < num) : v < 0 ↔ neg = true := by
  have hD : (0 : ℚ) < 2 ^ 149 * den := by positivity
  rw [← not_le, ← mul_nonneg_iff_of_pos_right hD, hv, Int.cast_nonneg_iff, not_le]
  cases neg
  · simp [signedNat_false]
  · simp [signedNat_true, hnum]

/-- One rounding of `±num / den` quanta is what IEEE 754 asks of a result with that exact value. -/
theorem isRounded_roundedWord : isRounded (roundedWord neg num den) v := by
  have hiff := overflowBound_le_iff hden hv
  refine ⟨fun h => ?_, fun h => ?_⟩
  · have hlt : num < (2 ^ 25 - 1) * 2 ^ 252 * den := not_le.1 fun hle => not_le.2 h (hiff.2 hle)
    refine isNearestEven_of_nearer hden hv ?_ fun w hw => ?_
    · rw [isFinite_iff_fmag, fmag_roundedWord]
      exact roundMag_lt_infMag hden hlt
    · rw [fquanta_roundedWord, fquanta_eq_signedNat w] at *
      have hnear := signed_nearer hden (by omega) hw
      simp only [nearer, roundedWord_parity] at hnear ⊢
      exact hnear
  · have hle := hiff.1 h
    have hnum : 0 < num := (by positivity : 0 < (2 ^ 25 - 1) * 2 ^ 252 * den).trans_le hle
    rw [roundedWord, roundMag_overflow hden hle, ofNat_packPat_infMag]
    simp only [infWord, neg_iff_of_mul_eq_signedNat hden hv hnum]

end

/-! ### The four operations -/

section
variable {a b : Word} (ha : isFinite a = true) (hb : isFinite b = true)
include ha hb

/-- The sum of two finite values is one rounding of the exact sum, of whatever sign when that is zero. -/
theorem fadd_finite : ∃ neg, fadd a b = roundedWord neg (fquanta a + fquanta b).natAbs 1 ∧
    signedNat neg (fquanta a + fquanta b).natAbs = fquanta a + fquanta b := by
  obtain ⟨han, hai⟩ := (isFinite_iff a).1 ha
  obtain ⟨hbn, hbi⟩ := (isFinite_iff b).1 hb
  rcases eq_or_ne (fquanta a + fquanta b) 0 with hz | hz
  · refine ⟨fsign a && fsign b, ?_, by simp [hz, signedNat]⟩
    simp [fadd_eq, han, hai, hbn, hbi, hz, roundedWord, roundMag_zero, ofNat_packPat_zero]
  · exact ⟨_, by simp [fadd_eq, han, hai, hbn, hbi, hz], signedNat_natAbs _⟩

theorem fadd_isRounded : isRounded (fadd a b) (fvalue a + fvalue b) := by
  obtain ⟨neg, he, hs⟩ := fadd_finite ha hb
  rw [he]
  refine isRounded_roundedWord one_pos ?_
  rw [hs, fvalue, fvalue]
  push_cast
  ring

theorem fsub_isRounded : isRounded (fsub a b) (fvalue a - fvalue b) := by
  rw [sub_eq_add_neg, ← fvalue_fneg]
  exact fadd_isRounded ha (by rw [isFinite_fneg, hb])

theorem fmul_isRounded : isRounded (fmul a b) (fvalue a * fvalue b) := by
  rw [fmul_finite ha hb]
  refine isRounded_roundedWord (by positivity) ?_
  rw [signedNat_mul, ← fquanta_eq_signedNat, ← fquanta_eq_signedNat, fvalue, fvalue]
  push_cast
  ring

theorem fdiv_isRounded (h : feq0 b = false) : isRounded (fdiv a b) (fvalue a / fvalue b) := by
  rw [fdiv_finite ha hb h]
  have hqb : 0 < quanta binary32 (fmag b) := quanta_pos (Nat.pos_of_ne_zero (of_decide_eq_false h))
  refine isRounded_roundedWord hqb ?_
  rw [fvalue, fvalue, fquanta_eq_signedNat b]
  cases fsign b
  · rw [Bool.bne_false, signedNat_mul_right, ← fquanta_eq_signedNat, signedNat_false]
    push_cast
    field_simp
    norm_num
  · rw [Bool.bne_true, signedNat_not, signedNat_mul_right, ← fquanta_eq_signedNat, signedNat_true]
    push_cast
    field_simp
    norm_num

end

/-- Settles O42: each operation on finite operands is one rounding of its exact result. -/
theorem arithmeticIsCorrectlyRounded : Obligations.ArithmeticIsCorrectlyRounded := fun _ _ ha hb =>
  ⟨fadd_isRounded ha hb, fsub_isRounded ha hb, fmul_isRounded ha hb, fdiv_isRounded ha hb⟩

end Sys2Proof.Machine
end

section
/-! PROOFS. Conversions between integers and binary32, and the floor (40_numerics.md R62, R65, R66). -/

namespace Sys2Proof.Machine

/-! ### Exact roundings -/

/-- A number of quanta below `2^128` that the spacing of its binade divides is rounded to itself. -/
theorem quanta_roundMag_of_dvd {num : Nat} (hlt : num < 2 ^ 24 * 2 ^ 253)
    (hdvd : 2 ^ (Nat.log2 num - 23) ∣ num) : quanta binary32 (roundMag binary32 num 1) = num := by
  obtain ⟨k, hk, -, hQ, -⟩ := roundMag_binade (den := 1) (by rwa [Nat.mul_one])
  rw [Nat.div_one] at hk
  rw [← hk] at hdvd
  obtain ⟨j, rfl⟩ := hdvd
  rw [hQ, Nat.one_mul, Nat.mul_comm (2 ^ k) j, roundTiesToEven_mul j (by positivity)]

/-- Every integer up to `2^24` is a binary32 value. -/
theorem quanta_roundMag_integer {n : Nat} (hn : n ≤ 2 ^ 24) :
    quanta binary32 (roundMag binary32 (n * 2 ^ 149) 1) = n * 2 ^ 149 := by
  rcases hn.eq_or_lt with rfl | hlt
  · decide
  · refine quanta_roundMag_of_dvd (by omega) (Dvd.dvd.mul_left (pow_dvd_pow 2 ?_) n)
    rcases eq_or_ne n 0 with rfl | h0
    · simp
    · have := (Nat.log2_lt (n := n * 2 ^ 149) (k := 173) (by positivity)).2 (by omega)
      omega

/-! ### Values -/

theorem abs_fvalue (x : Word) : |fvalue x| = quanta binary32 (fmag x) / 2 ^ 149 := by
  rw [fvalue, abs_div, fquanta_eq_signedNat]
  cases fsign x <;> simp [signedNat]

theorem floor_fvalue (x : Word) : ⌊fvalue x⌋ = fquanta x / 2 ^ 149 := by
  have h := Rat.floor_intCast_div_natCast (fquanta x) (2 ^ 149)
  push_cast at h
  exact h

theorem fvalue_neg_iff (x : Word) : fvalue x < 0 ↔ fquanta x < 0 := by
  rw [fvalue, div_lt_iff₀ (by positivity), zero_mul, Int.cast_lt_zero]

theorem fvalue_of_quanta {x : Word} {n : Nat} (h : quanta binary32 (fmag x) = n * 2 ^ 149) :
    fvalue x = signedNat (fsign x) n := by
  have hne : (2 ^ 149 : ℚ) ≠ 0 := by positivity
  rw [fvalue, fquanta_eq_signedNat, h, signedNat_mul_right, div_eq_iff hne]
  norm_cast

theorem fvalue_roundedWord_integer {neg : Bool} {n : Nat} (hn : n ≤ 2 ^ 24) :
    fvalue (roundedWord neg (n * 2 ^ 149) 1) = signedNat neg n := by
  rw [fvalue_of_quanta (n := n) (by rw [fmag_roundedWord, quanta_roundMag_integer hn]), fsign_roundedWord]

/-! ### Integers to binary32 (R65) -/

theorem i2f_eq (v : Int) : i2f v = roundedWord (decide (v < 0)) (v.natAbs * 2 ^ 149) 1 := by
  rw [i2f, oneExp_binary32, roundedWord]

theorem i2f_isRounded (v : Int) : isRounded (i2f v) v := by
  rw [i2f_eq]
  refine isRounded_roundedWord one_pos ?_
  rw [signedNat_mul_right, signedNat_natAbs]
  push_cast
  ring

theorem i2f_isNearestEven {v : Int} (hlo : -2147483648 ≤ v) (hhi : v ≤ 2147483647) :
    isNearestEven (i2f v) v := by
  refine (i2f_isRounded v).1 ?_
  have h : |(v : ℚ)| ≤ 2147483648 := by
    exact_mod_cast abs_le.2 ⟨hlo, hhi.trans (by decide)⟩
  exact h.trans_lt (by norm_num [overflowBound])

theorem fvalue_i2f {v : Int} (h : |v| ≤ 2 ^ 24) : fvalue (i2f v) = v := by
  rw [i2f_eq, fvalue_roundedWord_integer (by rw [Int.abs_eq_natAbs] at h; exact_mod_cast h), signedNat_natAbs]

/-! ### binary32 to integers (R66) -/

/-- The value without its fraction. -/
theorem truncate_fvalue (x : Word) : (if 0 ≤ fvalue x then ⌊fvalue x⌋ else ⌈fvalue x⌉) =
    signedNat (fsign x) (quanta binary32 (fmag x) / 2 ^ 149) := by
  have hceil : ⌈fvalue x⌉ = -(-fquanta x / 2 ^ 149) := by
    rw [← neg_neg (fvalue x), Int.ceil_neg, ← fvalue_fneg, floor_fvalue, fquanta_fneg]
  have hnonneg : 0 ≤ fvalue x ↔ 0 ≤ fquanta x := by rw [← not_lt, fvalue_neg_iff, not_lt]
  simp only [floor_fvalue, hceil, hnonneg, fquanta_eq_signedNat]
  cases fsign x
  · simp [signedNat_false]
  · rw [signedNat_true, signedNat_true]
    split <;> omega

theorem f2i_finite {x : Word} (h : isNaN x = false) : f2i x =
    max (-2147483648) (min 2147483647 (signedNat (fsign x) (quanta binary32 (fmag x) / 2 ^ 149))) := by
  rw [f2i, h, oneExp_binary32]
  cases fsign x
  · simp only [Bool.false_eq_true, if_false, signedNat_false]
    omega
  · simp only [Bool.false_eq_true, if_false, if_true, signedNat_true]
    omega

/-- Settles O45: to binary32 by one rounding, back by `f2i_finite` and `truncate_fvalue`. -/
theorem integerConversions : Obligations.IntegerConversions := by
  refine ⟨fun v hlo hhi => ⟨i2f_isNearestEven hlo hhi, fvalue_i2f, ?_⟩, fun a h => ?_, fun a h => ?_,
    fun a h => ?_⟩
  · rintro rfl
    decide
  · simp [f2i, h]
  · rcases isInf_cases h with rfl | rfl <;> decide
  · rw [f2i_finite (isNaN_of_isFinite h), truncate_fvalue]

/-! ### The floor (R62) -/

/-- The magnitude of the floor of a finite value. -/
def floorMag (x : Word) : Nat :=
  if fsign x then (quanta binary32 (fmag x) + (2 ^ 149 - 1)) / 2 ^ 149 else quanta binary32 (fmag x) / 2 ^ 149

/-- Rounding the quotient of a negative number down is rounding that of its magnitude up. -/
theorem neg_ediv_eq_neg_div_up (q : Nat) {c : Nat} (hc : 0 < c) :
    -((q + (c - 1)) / c : Nat) = -(q : Int) / c := by
  have hdiv := Nat.div_add_mod (q + (c - 1)) c
  have hmod := Nat.mod_lt (q + (c - 1)) hc
  generalize (q + (c - 1)) / c = n at *
  generalize (q + (c - 1)) % c = r at *
  have hneg : (c - 1 - r : Int) + c * -n = -q := by
    zify [hc] at hdiv
    linarith
  exact ((Int.ediv_emod_unique (by exact_mod_cast hc)).2 ⟨hneg, by omega, by omega⟩).1.symm

theorem signedNat_floorMag (x : Word) : signedNat (fsign x) (floorMag x) = ⌊fvalue x⌋ := by
  rw [floor_fvalue, fquanta_eq_signedNat, floorMag]
  cases fsign x
  · simp [signedNat_false]
  · rw [if_pos rfl, signedNat_true, signedNat_true, neg_ediv_eq_neg_div_up _ (by positivity : 0 < 2 ^ 149)]
    push_cast
    rfl

theorem floorMag_of_dvd {x : Word} (h : 2 ^ 149 ∣ quanta binary32 (fmag x)) :
    quanta binary32 (fmag x) = floorMag x * 2 ^ 149 := by
  obtain ⟨j, hj⟩ := h
  unfold floorMag
  split <;> omega

theorem floorMag_le {x : Word} {n : Nat} (h : quanta binary32 (fmag x) < n * 2 ^ 149) : floorMag x ≤ n := by
  unfold floorMag
  split <;> omega

section
variable {x : Word} (hx : isFinite x = true)
include hx

theorem ffloor_finite : ffloor x = roundedWord (fsign x) (floorMag x * 2 ^ 149) 1 := by
  obtain ⟨hn, hi⟩ := (isFinite_iff x).1 hx
  rw [ffloor, hn, hi, oneExp_binary32]
  rfl

/-- An integral value is its own floor. -/
theorem ffloor_of_dvd (h : 2 ^ 149 ∣ quanta binary32 (fmag x)) : ffloor x = x := by
  have hm := fmag_le_infMag (isNaN_of_isFinite hx)
  rw [ffloor_finite hx, ← floorMag_of_dvd h, ← Nat.mul_one (quanta _ _)]
  exact word_ext (fsign_roundedWord ..) (by rw [fmag_roundedWord, roundMag_exact _ one_pos hm])

/-- A finite value is integral or below `2^23`; either way its floor is a binary32 value. -/
theorem ffloor_spec : isFinite (ffloor x) = true ∧ fvalue (ffloor x) = ⌊fvalue x⌋ := by
  rw [← signedNat_floorMag]
  rcases dvd_quanta_or_lt 149 (fmag x) with hdvd | hlt
  · rw [ffloor_of_dvd hx hdvd]
    exact ⟨hx, fvalue_of_quanta (floorMag_of_dvd hdvd)⟩
  · have hle := floorMag_le hlt
    rw [ffloor_finite hx]
    refine ⟨?_, fvalue_roundedWord_integer (by omega)⟩
    rw [isFinite_iff_fmag, fmag_roundedWord]
    exact roundMag_lt_infMag one_pos (by omega)

theorem ffloor_of_feq0 (h : feq0 x = true) : ffloor x = x := by
  refine ffloor_of_dvd hx ?_
  rw [of_decide_eq_true h, quanta_zero]
  exact dvd_zero _

theorem ffloor_of_large (h : 2 ^ 23 ≤ |fvalue x|) : ffloor x = x := by
  refine ffloor_of_dvd hx ((dvd_quanta_or_lt 149 (fmag x)).resolve_right (not_lt.2 ?_))
  rw [abs_fvalue, le_div_iff₀ (by positivity)] at h
  exact_mod_cast h

theorem ffloor_of_small_neg (hlo : -1 < fvalue x) (hhi : fvalue x < 0) : ffloor x = fm1 := by
  have hs : fsign x = true := ((fquanta_neg_iff x).1 ((fvalue_neg_iff x).1 hhi)).1
  have hfloor : ⌊fvalue x⌋ = -1 := Int.floor_eq_iff.2 ⟨by push_cast; exact hlo.le, by simpa using hhi⟩
  have hmag : floorMag x = 1 := by
    have h := signedNat_floorMag x
    rw [hs, signedNat_true, hfloor] at h
    omega
  rw [ffloor_finite hx, hs, hmag]
  decide

end

/-- Settles O46: `ffloor_spec` for the value, and `ffloor_of_dvd` for the operands that are integral. -/
theorem floorIsGreatestIntegerBelow : Obligations.FloorIsGreatestIntegerBelow := fun _ =>
  ⟨fun h => by rw [ffloor, if_pos h]; rfl, fun h => by simp [ffloor, h, isNaN_of_isInf],
    fun h => ⟨(ffloor_spec h).1, (ffloor_spec h).2, ffloor_of_feq0 h, ffloor_of_large h,
      ffloor_of_small_neg h⟩⟩

end Sys2Proof.Machine
end

section
/-! PROOFS. The string GETSTR makes: the numeral reads back as the operand, and the response holds the same
bytes as the buffer (40_numerics.md R71, 41_parameter_commands.md R77). -/

namespace Sys2Proof.Machine

/-! ### Numerals -/

theorem readDigits_append (l l' : List Byte) (n : Nat) :
    readDigits (l ++ l') n = (readDigits l n).bind (readDigits l') := by
  induction l generalizing n with
  | nil => rfl
  | cons b bs ih =>
    simp only [List.cons_append, readDigits]
    split
    · exact ih _
    · rfl

theorem toNat_digit {d : Nat} (hd : d < 10) : (BitVec.ofNat 8 (0x30 + d)).toNat = 48 + d := by
  rw [BitVec.toNat_ofNat]
  omega

theorem readDigits_digit {d : Nat} (hd : d < 10) (n : Nat) :
    readDigits [BitVec.ofNat 8 (0x30 + d)] n = some (10 * n + d) := by
  rw [readDigits, toNat_digit hd, if_pos (by omega), readDigits, Nat.add_sub_cancel_left]

/-- Enough digits stand for the number. -/
theorem readDigits_decDigits {fuel m : Nat} (h : m < 10 ^ fuel) :
    readDigits (decDigits fuel m) 0 = some m := by
  induction fuel generalizing m with
  | zero => rw [Nat.lt_one_iff.1 h]; rfl
  | succ fuel ih =>
    unfold decDigits
    split
    · next hm => rw [readDigits_digit hm, Nat.mul_zero, Nat.zero_add]
    · rw [readDigits_append, ih (by rw [pow_succ] at h; omega), Option.bind_some,
        readDigits_digit (Nat.mod_lt _ (by decide)), Nat.div_add_mod]

/-- The first character is a digit, and `0` only in the numeral of zero. -/
theorem decDigits_cons {fuel m : Nat} (h : m < 10 ^ (fuel + 1)) :
    ∃ d ds, decDigits (fuel + 1) m = BitVec.ofNat 8 (0x30 + d) :: ds ∧ d < 10 ∧ (d = 0 → m = 0) := by
  induction fuel generalizing m with
  | zero => exact ⟨m, [], by rw [decDigits, if_pos (by simpa using h)], by simpa using h, id⟩
  | succ fuel ih =>
    unfold decDigits
    split
    · next hm => exact ⟨m, [], rfl, hm, id⟩
    · next hm =>
      obtain ⟨d, ds, hcons, hd, hzero⟩ := ih (m := m / 10) (by rw [pow_succ] at h; omega)
      exact ⟨d, _, by rw [hcons, List.cons_append], hd, fun h0 => by have := hzero h0; omega⟩

theorem readNumeral_decDigits {fuel m : Nat} (h : m < 10 ^ (fuel + 1)) :
    readNumeral (decDigits (fuel + 1) m) = some m := by
  rcases eq_or_ne m 0 with rfl | hm
  · rfl
  · obtain ⟨d, ds, hcons, hd, hzero⟩ := decDigits_cons h
    have hne : BitVec.ofNat 8 (0x30 + d) ≠ 48#8 := fun he => by
      have hval : 48 + d = 48 := (toNat_digit hd).symm.trans (congrArg BitVec.toNat he)
      exact hm (hzero (by omega))
    rw [hcons, readNumeral, if_neg fun h => hne h.1, ← hcons, readDigits_decDigits h]

/-- `DEC(v)` reads back as `v` (R71). -/
theorem readDecimal_DEC {v : Int} (h : valueFits v = true) : readDecimal (DEC v) = some v := by
  simp only [valueFits, Bool.and_eq_true, decide_eq_true_eq] at h
  have hbound : v.natAbs < 10 ^ (9 + 1) := by omega
  have hread := readNumeral_decDigits hbound
  unfold DEC
  split
  · next hneg =>
    rw [List.singleton_append, readDecimal, if_pos rfl, hread]
    dsimp only
    rw [if_neg (by omega)]
    congr 1
    omega
  · next hnonneg =>
    obtain ⟨d, ds, hcons, hd, -⟩ := decDigits_cons hbound
    have hne : BitVec.ofNat 8 (0x30 + d) ≠ 45#8 := fun he => by
      have hval : 48 + d = 45 := (toNat_digit hd).symm.trans (congrArg BitVec.toNat he)
      omega
    rw [List.nil_append, hcons, readDecimal, if_neg hne, ← hcons, hread]
    exact congrArg some (Int.natAbs_of_nonneg (by omega))

/-! ### The buffer -/

/-- The buffer begins with the string put into it. -/
theorem fillString_take (l l' : List Byte) (h : l.length ≤ 16) :
    (fillString (l ++ l')).toList.take l.length = l := by
  refine List.ext_getElem (by simpa using h) fun i hi hl => ?_
  rw [List.getElem_take, Vector.getElem_toList, ← List.getD_eq_getElem l 0 hl,
    ← List.getD_append l l' 0 i hl]
  exact fillString_get (l ++ l') ⟨i, by omega⟩

/-- The bytes of a word, least significant first. -/
def holdsBytes {w : Nat} (x : BitVec w) (l : List Byte) : Prop :=
  ∀ k (h : k < l.length), x.extractLsb' (8 * k) 8 = l[k]

theorem holdsBytes_append {w : Nat} {x : BitVec w} {l : List Byte} (y : Byte) (h : holdsBytes x l) :
    holdsBytes (x ++ y) (y :: l) := by
  intro k hk
  cases k with
  | zero => exact BitVec.extractLsb'_append_eq_right
  | succ k =>
    rw [BitVec.extractLsb'_append_eq_of_le (by omega), Nat.mul_succ, Nat.add_sub_cancel]
    exact h k (by simpa using hk)

theorem holdsBytes_singleton (y : Byte) : holdsBytes y [y] := by
  intro k hk
  obtain rfl : k = 0 := by simpa using hk
  exact BitVec.extractLsb'_eq_self

theorem holdsBytes_strField (b : Vector Byte 16) : holdsBytes (strField b)
    [b[0], b[1], b[2], b[3], b[4], b[5], b[6], b[7], b[8], b[9], b[10], b[11], b[12], b[13], b[14],
      b[15]] := by
  iterate 15 apply holdsBytes_append
  exact holdsBytes_singleton _

/-- Byte `k` of the response's string is byte `k` of the buffer (30_encoding.md R49). -/
theorem strField_byte (b : Vector Byte 16) (k : Fin 16) : (strField b).extractLsb' (8 * k.val) 8 = b[k] := by
  rw [holdsBytes_strField b k k.isLt]
  fin_cases k <;> rfl

theorem execGetstr_eq (id : Nat) (v : Int) (s : State) : exec (.getstr id v) s =
    .next (answered (s.setStrbuf (fillString (percentString v)))
      (responseWord statusOk opGetstr (BitVec.ofNat 32 (percentString v).length)
        (strField (fillString (percentString v))))) :=
  congrArg _ (respond_eq ..)

/-- Settles O22: the buffer begins with `DEC(v)`, which reads back as `v`; the response's string
is the buffer. -/
theorem getstrFormatsPercent : Obligations.GetstrFormatsPercent := by
  intro s id v hwf
  obtain ⟨hlo, hhi⟩ := percentString_length v
  have hlen : (percentString v).length = (DEC v).length + 1 := by simp [percentString]
  refine ⟨_, _, _, execGetstr_eq id v s, hlo, hhi, ?_, fun k hk => ?_, fun k hk => ?_, strField_byte _⟩
  · rw [hlen, Nat.add_sub_cancel, percentString, fillString_take _ _ (by omega)]
    exact readDecimal_DEC (Bool.and_eq_true_iff.1 hwf).2
  · rw [fillString_get, hk, hlen, Nat.add_sub_cancel]
    simp [percentString]
  · rw [fillString_get]
    exact List.getD_eq_default _ _ hk

end Sys2Proof.Machine
end

section
/-! PROOFS. The parameter-class commands SETP, GETP and GETBMP (41_parameter_commands.md R73 to R76, R78), and
what GETP answers right after SETP (R79). -/

namespace Sys2Proof.Machine

/-! ### The parameter table by id (R74) -/

theorem Params.write_eq_ite (p : Params) (id : Nat) (v : Int) : p.write id v =
    if id = 0 then { p with clipping := NORM v, sclip := scaledClipping (NORM v) }
    else if id = 1 then { p with drive := NORM v }
    else if id = 2 then { p with compress := NORM v }
    else if id = 3 then { p with waveshape := waveshapeOf (NORM v) }
    else if id = 4 then { p with bass := NORM v }
    else if id = 5 then { p with high := NORM v }
    else p := by
  match id with
  | 0 | 1 | 2 | 3 | 4 | 5 => rfl
  | _ + 6 => simp [Params.write]

/-- The inverse of `2·value/100 − 1` (R74, R76). -/
def waveshapePercent (r : Word) : Int := f2i (fmul (fadd r f1) f50)

theorem Params.read_eq_ite (p : Params) (id : Nat) : p.read id =
    if id = 0 then percentOf p.clipping
    else if id = 1 then percentOf p.drive
    else if id = 2 then percentOf p.compress
    else if id = 3 then waveshapePercent p.waveshape
    else if id = 4 then percentOf p.bass
    else if id = 5 then percentOf p.high
    else 0 := by
  match id with
  | 0 | 1 | 2 | 3 | 4 | 5 => rfl
  | _ + 6 => simp [Params.read]

/-! ### The commands -/

theorem execSetp_eq (id : Nat) (v : Int) (s : State) : exec (.setp id v) s =
    .next (answered (s.setPar (s.par.write id v)) (responseWord statusOk opSetp 0 0)) :=
  congrArg _ (respond_eq ..)

theorem execGetp_eq (id : Nat) (s : State) : exec (.getp id) s =
    .next (answered s (responseWord statusOk opGetp (BitVec.ofInt 32 (s.par.read id)) 0)) :=
  congrArg _ (respond_eq ..)

theorem execGetbmp_eq (id : Nat) (v : Int) (s : State) : exec (.getbmp id v) s =
    .next (answered s (responseWord statusOk opGetbmp 0 0)) :=
  congrArg _ (respond_eq ..)

/-- Settles O20: the register of the id by `Params.write_eq_ite`, the response by `execSetp_eq`. -/
theorem setpWritesParameter : Obligations.SetpWritesParameter := by
  intro s id v
  rw [execSetp_eq, Params.write_eq_ite]
  rfl

/-- Settles O21: the integer of the id by `Params.read_eq_ite`, the response by `execGetp_eq`. -/
theorem getpAnswersParameter : Obligations.GetpAnswersParameter := by
  intro s id
  rw [execGetp_eq, Params.read_eq_ite]
  rfl

/-- Settles O23: `execGetbmp_eq`, whose response word is the literal of the statement. -/
theorem getbmpAnswersNull : Obligations.GetbmpAnswersNull := fun s id v => execGetbmp_eq id v s

/-! ### Round trip (R79) -/

/-- For the ids whose register holds `value/100`, GETP reads back what SETP normalised. -/
theorem Params.read_write_percent (p : Params) {id : Nat} (v : Int) (hid : id ∈ [0, 1, 2, 4, 5]) :
    (p.write id v).read id = percentOf (NORM v) := by
  fin_cases hid <;> rfl

theorem Params.read_write_waveshape (p : Params) (v : Int) :
    (p.write 3 v).read 3 = waveshapePercent (waveshapeOf (NORM v)) := rfl

/-- Each of the 101 declared values, computed: at 53 and at 59 the product rounds to just below the integer
and the conversion truncates it. -/
theorem percentOf_NORM_declared : ∀ v : Int, 0 ≤ v → v ≤ 100 →
    percentOf (NORM v) = if v = 53 then 52 else if v = 59 then 58 else v := by
  decide +kernel

/-- Each of the 201 declared values, computed: the result is the value itself or one step nearer zero. -/
theorem waveshapePercent_waveshapeOf_declared : ∀ v : Int, -100 ≤ v → v ≤ 100 →
    waveshapePercent (waveshapeOf (NORM v)) =
      if v ∈ [-84, -83, -82, -81, -80, -59, -58, -57, -56, -55, -54, -53, -42, -41, -40, -29, -28, -27,
          -21, -20, -16, -15, -14, -8, -7, -3, -2, -1] then v + 1
        else if v ∈ [1, 4, 7, 8, 10, 14, 20, 21, 53, 59] then v - 1
        else v := by
  decide +kernel

/-- GETP right after SETP of the same id answers what the register just written reads as. -/
theorem execGetp_after_setp {s t : State} {id : Nat} {v r : Int} (h : exec (.setp id v) s = .next t)
    (hr : (s.par.write id v).read id = r) :
    exec (.getp id) t = .next (answered t (responseWord statusOk opGetp (BitVec.ofInt 32 r) 0)) := by
  rw [execGetp_eq, execSetp_par h, hr]

/-- Settles O24: GETP reads the register SETP wrote (`execGetp_after_setp`), and the formulas of the two
are computed over the declared domains. -/
theorem getpAfterSetpRoundTrip : Obligations.GetpAfterSetpRoundTrip := by
  refine fun s t id v h => ⟨fun hid h0 h1 => execGetp_after_setp h ?_, ?_⟩
  · rw [Params.read_write_percent _ _ hid, percentOf_NORM_declared v h0 h1]
  · rintro rfl h0 h1
    refine execGetp_after_setp h ?_
    rw [Params.read_write_waveshape, waveshapePercent_waveshapeOf_declared v h0 h1]

end Sys2Proof.Machine
end

section
/-! PROOFS. The audio-class commands on the two ports (42_audio_commands.md R80 to R83, 30_encoding.md R48),
and the sample and end steps of PROCESS (R83, R84). -/

namespace Sys2Proof.Machine

/-! ### Each port's answer to the audio class (R48) -/

theorem audioClass_A {s : State} (h : s.serving = .A) (op : Byte) (effect : State → State) :
    audioClass op effect s = effect s := by
  rw [audioClass, h]

theorem audioClass_C {s : State} (h : s.serving = .C) (op : Byte) (effect : State → State) :
    audioClass op effect s = answered s (responseWord statusNotPermitted op 0 0) := by
  rw [audioClass, h]
  exact respond_eq ..

/-- The shared meaning of INIT and RESET, which differ in the opcode echoed only (R82). -/
theorem audioClass_clearFM (op : Byte) (s : State) :
    (s.serving = .A → audioClass op (fun s => respondOk op 0 0 (clearFM s)) s =
      answered { s with fm := FilterMemory.clear } (responseWord statusOk op 0 0)) ∧
    (s.serving = .C → audioClass op (fun s => respondOk op 0 0 (clearFM s)) s =
      answered s (responseWord statusNotPermitted op 0 0)) :=
  ⟨fun h => (audioClass_A h ..).trans (respond_eq ..), fun h => audioClass_C h ..⟩

/-- Settles O12: `audioClass_clearFM`, whose response words are the literals of the statement. -/
theorem initClearsFilterMemory : Obligations.InitClearsFilterMemory := fun s =>
  ⟨fun h => congrArg _ ((audioClass_clearFM opInit s).1 h),
    fun h => congrArg _ ((audioClass_clearFM opInit s).2 h)⟩

/-- Settles O13: as O12, under the opcode of RESET. -/
theorem resetClearsFilterMemory : Obligations.ResetClearsFilterMemory := fun s =>
  ⟨fun h => congrArg _ ((audioClass_clearFM opReset s).1 h),
    fun h => congrArg _ ((audioClass_clearFM opReset s).2 h)⟩

theorem execProcess_A {s : State} (h : s.serving = .A) (src dst : CellAddr) (n : Nat) :
    exec (.process src dst n) s = .next (startProcess src dst n s) :=
  congrArg _ (audioClass_A h ..)

theorem execProcess_C {s : State} (h : s.serving = .C) (src dst : CellAddr) (n : Nat) :
    exec (.process src dst n) s = .next (answered s (responseWord statusNotPermitted opProcess 0 0)) :=
  congrArg _ (audioClass_C h ..)

/-- Settles O14: the two ports' meaning of PROCESS; port A's is the start step. -/
theorem processStarts : Obligations.ProcessStarts := fun _ src dst n _ =>
  ⟨fun h => execProcess_A h src dst n, fun h => execProcess_C h src dst n⟩

/-! ### The end step (R83, S5) -/

theorem endProcess_eq (s : State) :
    endProcess s = answered { s with seq := { s.seq with busy := false }, serving := .A }
      (responseWord statusOk opProcess 0 0) := by
  rw [endProcess, respondOk, respond_eq]
  rfl

/-- With port A alone able to act, a PROCESS that has no sample left takes its end step. -/
theorem step_endProcess {s : State} (hA : onlyAEnabled s) (hb : s.seq.busy = true)
    (hf : s.seq.fidx = s.seq.fcnt) (hp : s.portA.pend ≠ none) : step s = .next (endProcess s) := by
  rw [step_onlyA hA (.inl hb) (.inl hp), serveA, if_pos hb, if_pos hf]

/-- Settles O18: the step is the end step, which answers `endProcess_eq`. -/
theorem processEnds : Obligations.ProcessEnds := fun s hA hb hf hp =>
  (step_endProcess hA hb hf hp).trans (congrArg _ (endProcess_eq s))

/-! ### The sample step (R84, S4) -/

theorem Channel.num_eq_ite (c : Channel) : c.num = if c = .left then 0 else 1 := by
  cases c <;> rfl

theorem Sequencer.advance_eq (q : Sequencer) :
    q.advance = { q with
      fidx := if q.ch = .left then q.fidx else q.fidx + 1
      ch := if q.ch = .left then .right else .left } := by
  rcases q with ⟨busy, src, dst, fcnt, fidx, ch⟩
  cases ch <;> rfl

/-- Settles O15: the stages' states are those of `processSample` (`runSlots_slotOrder`), each answered by its
`exec` by definition; `sampleStep_eq` is the step over the last of them. -/
theorem sampleStepRunsStagesInOrder : Obligations.SampleStepRunsStagesInOrder := by
  intro s _ hA hb hf hp
  refine ⟨_, _, _, _, _, _, _, _, rfl, rfl, rfl, rfl, rfl, rfl, rfl, rfl, ?_⟩
  rw [step_sampleStep hA hb hf hp, sampleStep_eq, Sequencer.advance_eq, ← Channel.num_eq_ite]
  rfl

end Sys2Proof.Machine
end

section
/-! PROOFS. What the eight stages read (42_audio_commands.md R82, 43_sample_pipeline.md R88). -/

namespace Sys2Proof.Machine

/-- The two states agree on all that the stages read: parameters, filter memory, ROM and `ACC`. -/
structure SameInputs (s s' : State) : Prop where
  par : s.par = s'.par
  fm : s.fm = s'.fm
  rom : s.rom = s'.rom
  acc : s.acc = s'.acc

section
variable {s s' : State}

theorem SameInputs.setAcc {x x' : Word} (h : SameInputs s s') (hx : x = x') :
    SameInputs (s.setAcc x) (s'.setAcc x') :=
  ⟨h.par, h.fm, h.rom, hx⟩

theorem SameInputs.setFm {f f' : FilterMemory} (h : SameInputs s s') (hf : f = f') :
    SameInputs (s.setFm f) (s'.setFm f') :=
  ⟨h.par, hf, h.rom, h.acc⟩

/-- A stage that is bypassed in both states or in neither. -/
theorem SameInputs.bypass {c : Prop} [Decidable c] {t t' : State} (h : SameInputs s s')
    (ht : SameInputs t t') : SameInputs (if c then s else t) (if c then s' else t') := by
  split
  · exact h
  · exact ht

/-! Each stage keeps the agreement. -/

theorem SameInputs.clip (h : SameInputs s s') : SameInputs (clipStage s) (clipStage s') :=
  h.setAcc (by rw [h.par, h.acc])

theorem SameInputs.bass1 (h : SameInputs s s') : SameInputs (bass1Stage s) (bass1Stage s') := by
  unfold bass1Stage
  rw [h.par, h.fm, h.acc]
  exact h.bypass ((h.setFm rfl).setAcc rfl)

theorem SameInputs.bass2 (h : SameInputs s s') : SameInputs (bass2Stage s) (bass2Stage s') := by
  unfold bass2Stage
  rw [h.par, h.fm, h.acc]
  exact h.bypass ((h.setFm rfl).setAcc rfl)

theorem SameInputs.highPass (h : SameInputs s s') : SameInputs (highPassStage s) (highPassStage s') :=
  (h.setAcc (by rw [h.fm, h.acc])).setFm (by rw [h.fm])

theorem SameInputs.high (h : SameInputs s s') : SameInputs (highStage s) (highStage s') := by
  unfold highStage
  rw [h.par]
  exact h.bypass h.highPass.highPass

variable (u : Config.ElemUnits)

theorem SameInputs.drive (h : SameInputs s s') : SameInputs (driveStage u s) (driveStage u s') :=
  h.setAcc (by rw [h.par, h.acc])

theorem SameInputs.comp (h : SameInputs s s') : SameInputs (compStage u s) (compStage u s') :=
  h.setAcc (by rw [h.par, h.acc])

theorem SameInputs.wshape (h : SameInputs s s') : SameInputs (wshapeStage u s) (wshapeStage u s') :=
  h.setAcc (by rw [h.par, h.rom, h.acc])

theorem SameInputs.sat (h : SameInputs s s') : SameInputs (satStage u s) (satStage u s') :=
  h.setAcc (by rw [h.acc])

/-- The eight stages in their order (R88). -/
theorem SameInputs.sample (h : SameInputs s s') : SameInputs (processSample u s) (processSample u s') :=
  h.clip.bass1.bass2.high.drive u |>.comp u |>.wshape u |>.sat u

end

/-- Settles O41: `ProcessSample` keeps the agreement of two states on its inputs. -/
theorem sampleDependsOnlyOnItsInputs : Obligations.SampleDependsOnlyOnItsInputs := by
  intro s s' hpar hfm hrom hacc
  have h := SameInputs.sample Config.units ⟨hpar, hfm, hrom, hacc⟩
  exact ⟨_, _, runSlots_slotOrder s, runSlots_slotOrder s', h.acc, h.fm⟩

end Sys2Proof.Machine
end

section
/-! PROOFS. A PROCESS with no other agent enabled, from its start step to its end step
(42_audio_commands.md R83, R87). -/

namespace Sys2Proof.Machine

/-- A run of `k + 1` steps ends with the step from where `k` of them lead. -/
theorem run_succ {M : Host.Core} {k : Nat} {s m : M.State} (hrun : M.run k s = .next m) :
    M.run (k + 1) s = M.step m := by
  induction k generalizing s with
  | zero =>
    obtain rfl : s = m := Host.Outcome.next.inj hrun
    rw [Host.Core.run]
    cases M.step s <;> rfl
  | succ k ih =>
    rw [Host.Core.run] at hrun ⊢
    cases hs : M.step s <;> rw [hs] at hrun
    case next s' => exact ih hrun
    case fault => cases hrun
    case refused => cases hrun

/-- The sequencer of a PROCESS of `n` frames when it has done `k` samples. -/
def Sequencer.atSample (src dst : CellAddr) (n k : Nat) : Sequencer :=
  { busy := true, src := src, dst := dst, fcnt := BitVec.ofNat 32 n, fidx := BitVec.ofNat 32 (k / 2),
    ch := if k % 2 = 0 then .left else .right }

/-- Two samples make a frame. -/
theorem Sequencer.advance_atSample (src dst : CellAddr) (n k : Nat) :
    (atSample src dst n k).advance = atSample src dst n (k + 1) := by
  rcases Nat.mod_two_eq_zero_or_one k with hk | hk
  · have h1 : (k + 1) % 2 = 1 := by omega
    have h2 : (k + 1) / 2 = k / 2 := by omega
    simp [advance_eq, atSample, hk, h1, h2]
  · have h1 : (k + 1) % 2 = 0 := by omega
    have h2 : (k + 1) / 2 = k / 2 + 1 := by omega
    simp [advance_eq, atSample, hk, h1, h2, BitVec.ofNat_add]

theorem Sequencer.atSample_fidx_ne {n k : Nat} (src dst : CellAddr) (hn : n < 2 ^ 32) (hk : k < 2 * n) :
    (atSample src dst n k).fidx ≠ (atSample src dst n k).fcnt := by
  intro h
  have := congrArg BitVec.toNat h
  simp only [atSample, BitVec.toNat_ofNat] at this
  omega

theorem Sequencer.atSample_fidx_eq (src dst : CellAddr) (n : Nat) :
    (atSample src dst n (2 * n)).fidx = (atSample src dst n (2 * n)).fcnt := by
  simp [atSample]

/-- `t` lies between the start and the end step of the PROCESS that waited in `s`, `k` of its samples done:
the ports and what no sample step writes are those of `s`. -/
structure InProcess (s : State) (src dst : CellAddr) (n k : Nat) (t : State) : Prop where
  seq : t.seq = .atSample src dst n k
  portA : t.portA = s.portA
  portC : t.portC = s.portC
  platform : t.platform = s.platform
  par : t.par = s.par
  rom : t.rom = s.rom
  strbuf : t.strbuf = s.strbuf

section
variable {s m : State} {src dst : CellAddr} {n k : Nat}

theorem InProcess.onlyA (h : InProcess s src dst n k m) (hA : onlyAEnabled s) : onlyAEnabled m := by
  unfold onlyAEnabled
  rw [h.portC, h.platform]
  exact hA

theorem InProcess.busy (h : InProcess s src dst n k m) : m.seq.busy = true := by
  rw [h.seq]; rfl

theorem InProcess.pend (h : InProcess s src dst n k m) : m.portA.pend = s.portA.pend := by
  rw [h.portA]

variable {w : Command} (hA : onlyAEnabled s) (hw : s.portA.pend = some w)
include hA hw

/-- The start step: no sample is done yet. -/
theorem step_inProcess_start (hb : s.seq.busy = false)
    (hdec : decode (.command w) = .ok (.process src dst n)) :
    ∃ m, step s = .next m ∧ InProcess s src dst n 0 m := by
  refine ⟨startProcess src dst n (s.setServing .A), ?_, rfl, rfl, rfl, rfl, rfl, rfl, rfl⟩
  rw [step_serveCommand_A hA hb hw, serveCommand, hdec]
  exact execProcess_A rfl src dst n

/-- A sample step: one more sample is done. -/
theorem InProcess.step_sample (h : InProcess s src dst n k m) (hn : n < 2 ^ 32) (hk : k < 2 * n) :
    ∃ t, step m = .next t ∧ InProcess s src dst n (k + 1) t := by
  have hf : m.seq.fidx ≠ m.seq.fcnt := by rw [h.seq]; exact Sequencer.atSample_fidx_ne src dst hn hk
  have hp : m.portA.pend ≠ none := by rw [h.pend, hw]; simp
  refine ⟨_, (step_sampleStep (h.onlyA hA) h.busy hf hp).trans (sampleStep_eq m), ?_,
    h.portA, h.portC, h.platform, h.par, h.rom, h.strbuf⟩
  exact (congrArg Sequencer.advance h.seq).trans (Sequencer.advance_atSample src dst n k)

/-- With all `2n` samples done comes the end step. -/
theorem InProcess.step_end (h : InProcess s src dst n (2 * n) m) : step m = .next (endProcess m) :=
  step_endProcess (h.onlyA hA) h.busy (by rw [h.seq]; exact Sequencer.atSample_fidx_eq src dst n)
    (by rw [h.pend, hw]; simp)

/-- The start step and `k` sample steps. -/
theorem run_inProcess (hb : s.seq.busy = false) (hdec : decode (.command w) = .ok (.process src dst n))
    (hk : k ≤ 2 * n) : ∃ m, core.run (k + 1) s = .next m ∧ InProcess s src dst n k m := by
  induction k with
  | zero =>
    obtain ⟨m, hm, h⟩ := step_inProcess_start hA hw hb hdec
    exact ⟨m, (run_succ rfl).trans hm, h⟩
  | succ k ih =>
    obtain ⟨m, hm, h⟩ := ih (by omega)
    obtain ⟨t, ht, h'⟩ := h.step_sample hA hw (lt_of_decode_process hdec) hk
    exact ⟨t, (run_succ hm).trans ht, h'⟩

end

/-- Settles O19: every state but the first and the last is `InProcess` (`run_inProcess`), where the ports are
untouched; the last step is the end step, which answers. -/
theorem processRunsToCompletion : Obligations.ProcessRunsToCompletion := by
  intro s w src dst n hA _ hb hw hdec
  have hrun {k : Nat} (hk : k ≤ 2 * n) := run_inProcess hA hw hb hdec hk
  obtain ⟨m, hm, h⟩ := hrun le_rfl
  refine ⟨endProcess m, (run_succ hm).trans (h.step_end hA hw), rfl, rfl,
    congrArg (fun p : PortState => p.rsp ++ [_]) h.portA, h.portC, h.par, h.rom, h.strbuf, ?_⟩
  rintro (_ | k) hk
  · exact ⟨s, rfl, hw, rfl⟩
  · obtain ⟨m', hm', h'⟩ := hrun (k := k) (by omega)
    exact ⟨m', hm', h'.pend.trans hw, congrArg PortState.rsp h'.portA⟩

end Sys2Proof.Machine
end

section
/-! PROOFS. The stage operations one by one and the eight together: what each answers, what it leaves
alone, and the bound on what is stored (43_sample_pipeline.md R88 to R99). -/

namespace Sys2Proof.Machine

/-! ### Bypassed and taken -/

section
variable {s : State}

theorem exec_bass1_of_zero (h : feq0 s.par.bass = true) : exec .bass1 s = .next s :=
  congrArg Host.Outcome.next (if_pos h)

theorem exec_bass1_of_nonzero (h : feq0 s.par.bass = false) : exec .bass1 s =
    .next ((s.setFm { s.fm with c1 := (cellStep s.par.bass s.fm.c1 s.acc).1 }).setAcc
      (cellStep s.par.bass s.fm.c1 s.acc).2) :=
  congrArg Host.Outcome.next (if_neg (ne_true_of_eq_false h))

theorem exec_bass2_of_zero (h : feq0 s.par.bass = true) : exec .bass2 s = .next s :=
  congrArg Host.Outcome.next (if_pos h)

theorem exec_bass2_of_nonzero (h : feq0 s.par.bass = false) : exec .bass2 s =
    .next ((s.setFm { s.fm with c2 := (cellStep s.par.bass s.fm.c2 s.acc).1 }).setAcc
      (cellStep s.par.bass s.fm.c2 s.acc).2) :=
  congrArg Host.Outcome.next (if_neg (ne_true_of_eq_false h))

theorem exec_high_of_zero (h : feq0 s.par.high = true) : exec .high s = .next s :=
  congrArg Host.Outcome.next (if_pos h)

theorem exec_high_of_nonzero (h : feq0 s.par.high = false) :
    exec .high s = .next (highPassStage (highPassStage s)) :=
  congrArg Host.Outcome.next (if_neg (ne_true_of_eq_false h))

end

/-- CLIP with its constants and the clamp of R63 written out. -/
theorem clipValue_eq (p : Params) (x : Word) : clipValue p x =
    if feq0 p.sclip then x
    else if flt (fadd x (fmul x p.sclip)) fm1 then fm1
    else if fgt (fadd x (fmul x p.sclip)) f1 then f1
    else fadd x (fmul x p.sclip) := rfl

/-- Settles O25: `clipValue_eq`. -/
theorem clipStage_spec : Obligations.ClipStage := fun s _ =>
  congrArg (fun x => Host.Outcome.next (s.setAcc x)) (clipValue_eq s.par s.acc)

/-- Settles O26: the two cases of the bypass; the cell function's terms are those of `cellStep`. -/
theorem bass1Stage_spec : Obligations.Bass1Stage := fun _ _ => ⟨exec_bass1_of_zero, exec_bass1_of_nonzero⟩

/-- Settles O27: as BASS1, over cell 2. -/
theorem bass2Stage_spec : Obligations.Bass2Stage := fun _ _ => ⟨exec_bass2_of_zero, exec_bass2_of_nonzero⟩

/-- Settles O28: the second pass starts from the `ACC` and the `BT` the first one left. -/
theorem highStage_spec : Obligations.HighStage := fun _ _ => ⟨exec_high_of_zero, exec_high_of_nonzero⟩

theorem exec_drive (s : State) : exec .drive s = .next (s.setAcc (driveValue Config.units s.par s.acc)) := rfl

theorem exec_comp (s : State) : exec .comp s = .next (s.setAcc (compValue Config.units s.par s.acc)) := rfl

theorem exec_wshape (s : State) :
    exec .wshape s = .next (s.setAcc (wshapeValue Config.units s.par s.rom s.acc)) := rfl

theorem exec_sat (s : State) : exec .sat s = .next (s.setAcc (satValue Config.units s.acc)) := rfl

/-- Settles O30: the two arms of `driveValue`. -/
theorem driveStage_spec : Obligations.DriveStage := fun s _ => exec_drive s

/-- Settles O31: the three arms of `compValue`. -/
theorem compStage_spec : Obligations.CompStage := fun s _ => exec_comp s

/-- Settles O34: the three arms of `wshapeValue`. -/
theorem wshapeStage_spec : Obligations.WshapeStage := fun s _ => exec_wshape s

/-- Settles O35: `satValue` is the platform's `TANH32`. -/
theorem satStage_spec : Obligations.SatStage := exec_sat

/-! ### What each stage leaves alone (R88, R100) -/

theorem exec_setsAcc {i : Instr} (h : i ∈ [Instr.clip, .drive, .comp, .wshape, .sat, .luti]) (s : State) :
    ∃ x, exec i s = .next (s.setAcc x) := by
  simp only [List.mem_cons, List.not_mem_nil, or_false] at h
  rcases h with rfl | rfl | rfl | rfl | rfl | rfl <;> exact ⟨_, rfl⟩

theorem exec_bass1_setsCell (s : State) :
    ∃ x c, exec .bass1 s = .next ((s.setFm { s.fm with c1 := c }).setAcc x) := by
  cases h : feq0 s.par.bass
  · exact ⟨_, _, exec_bass1_of_nonzero h⟩
  · exact ⟨s.acc, s.fm.c1, exec_bass1_of_zero h⟩

theorem exec_bass2_setsCell (s : State) :
    ∃ x c, exec .bass2 s = .next ((s.setFm { s.fm with c2 := c }).setAcc x) := by
  cases h : feq0 s.par.bass
  · exact ⟨_, _, exec_bass2_of_nonzero h⟩
  · exact ⟨s.acc, s.fm.c2, exec_bass2_of_zero h⟩

theorem exec_high_setsBoost (s : State) :
    ∃ x b, exec .high s = .next ((s.setFm { s.fm with bt := b }).setAcc x) := by
  cases h : feq0 s.par.high
  · exact ⟨_, _, exec_high_of_nonzero h⟩
  · exact ⟨s.acc, s.fm.bt, exec_high_of_zero h⟩

/-- Settles O39: four kinds of stage, by what they write besides `ACC`: nothing, cell 1, cell 2, `BT`. -/
theorem stagesAlwaysComplete : Obligations.StagesAlwaysComplete := by
  intro i hi s
  have hkind : i ∈ [Instr.clip, .drive, .comp, .wshape, .sat, .luti] ∨
      i = .bass1 ∨ i = .bass2 ∨ i = .high := by
    simp only [List.mem_cons, List.not_mem_nil, or_false] at hi ⊢
    tauto
  rcases hkind with h | rfl | rfl | rfl
  · obtain ⟨x, hx⟩ := exec_setsAcc h s
    exact ⟨_, hx, rfl, fun _ => rfl, fun _ => rfl, fun _ => rfl, fun _ => rfl⟩
  · obtain ⟨x, c, hx⟩ := exec_bass1_setsCell s
    exact ⟨_, hx, rfl, by simp, fun _ => rfl, nofun, nofun⟩
  · obtain ⟨x, c, hx⟩ := exec_bass2_setsCell s
    exact ⟨_, hx, rfl, by simp, nofun, fun _ => rfl, nofun⟩
  · obtain ⟨x, b, hx⟩ := exec_high_setsBoost s
    exact ⟨_, hx, rfl, by simp, nofun, nofun, fun _ => rfl⟩

/-! ### The bound on what is stored (R99) -/

/-- The last stage's output is a NaN only for a NaN (R67). -/
theorem satValue_nan_or_between (x : Word) :
    isNaN (satValue Config.units x) = true ∨ between fm1 f1 (satValue Config.units x) := by
  have htanh := Config.platform.tanhOk
  cases hx : isNaN x
  · exact .inr (htanh.bound x hx)
  · have hnan : satValue Config.units x = QNAN32 := htanh.nan x hx
    exact .inl (by rw [hnan]; decide)

/-- Settles O40: SAT comes last, whatever the seven stages before it make. -/
theorem outputBound : Obligations.OutputBound := fun s _ =>
  ⟨_, runSlots_slotOrder s, satValue_nan_or_between _⟩

end Sys2Proof.Machine
end

section
/-! PROOFS. HIGH with BT and BTINC zero: the way to binary64 and back is exact for a finite sample, and the
product with zero adds nothing to it (40_numerics.md R64, 43_sample_pipeline.md R94). -/

namespace Sys2Proof.Machine

/-! ### A pattern times zero, and plus that product, in any format -/

theorem quanta_zero_eq (f : Fmt) : quanta f 0 = 0 := by simp [quanta]

theorem roundMag_zero_eq (f : Fmt) {den : Nat} (hden : 0 < den) : roundMag f 0 den = 0 :=
  Nat.le_zero.1 (roundMag_le f hden (Nat.zero_le _) (Nat.zero_le _))

section
variable {f : Fmt} {neg : Bool} {m : Nat}

theorem magPat_packPat (h : m < 2 ^ (f.width - 1)) : magPat f (packPat f neg m) = m := by
  cases neg <;> simp [magPat, packPat, Nat.mod_eq_of_lt h]

theorem signPat_packPat (h : m < 2 ^ (f.width - 1)) : signPat f (packPat f neg m) = neg := by
  cases neg <;> simp [signPat, packPat, h]

theorem signedQuanta_packPat (h : m < 2 ^ (f.width - 1)) :
    signedQuanta f (packPat f neg m) = signedNat neg (quanta f m) := by
  rw [signedQuanta, signPat_packPat h, magPat_packPat h, signedNat]

variable (hf : infMag f < 2 ^ (f.width - 1)) (h : m < infMag f)
include hf h

theorem nanPat_packPat_finite : nanPat f (packPat f neg m) = false := by
  rw [nanPat, magPat_packPat (h.trans hf), decide_eq_false_iff_not]
  exact h.le.not_gt

theorem infPat_packPat_finite : infPat f (packPat f neg m) = false := by
  rw [infPat, magPat_packPat (h.trans hf), decide_eq_false_iff_not]
  exact h.ne

/-- A finite pattern times `+0.0` is the zero of its sign. -/
theorem mulPat_zero : mulPat f (packPat f neg m) (packPat f false 0) = packPat f neg 0 := by
  have h0 : 0 < infMag f := Nat.zero_lt_of_lt h
  have hpos : (0 : Nat) < 2 ^ (f.width - 1) := h0.trans hf
  simp [mulPat, nanPat_packPat_finite hf h, infPat_packPat_finite hf h, nanPat_packPat_finite hf h0,
    infPat_packPat_finite hf h0, magPat_packPat hpos, signPat_packPat hpos, signPat_packPat (h.trans hf),
    quanta_zero_eq, roundMag_zero_eq]

/-- A finite pattern plus the zero of its sign is the pattern, a zero among them. -/
theorem addPat_zero : addPat f (packPat f neg m) (packPat f neg 0) = packPat f neg m := by
  have h0 : 0 < infMag f := Nat.zero_lt_of_lt h
  have hm := h.trans hf
  have hsum : signedQuanta f (packPat f neg m) + signedQuanta f (packPat f neg 0) =
      signedNat neg (quanta f m) := by
    rw [signedQuanta_packPat hm, signedQuanta_packPat (h0.trans hf), quanta_zero_eq]
    cases neg <;> simp [signedNat]
  have hround : roundMag f (quanta f m) 1 = m := by
    simpa using roundMag_exact f one_pos h.le
  simp only [addPat, nanPat_packPat_finite hf h, infPat_packPat_finite hf h, nanPat_packPat_finite hf h0,
    infPat_packPat_finite hf h0, hsum, signPat_packPat hm, signPat_packPat (h0.trans hf), Bool.or_self,
    Bool.and_self, Bool.false_eq_true, if_false]
  split
  · next hz =>
    have hq : quanta f m = 0 := by cases neg <;> simpa [signedNat] using hz
    rw [← hround, hq, roundMag_zero_eq f one_pos]
  · next hz =>
    have hq : 0 < quanta f m := Nat.pos_of_ne_zero fun hq => hz (by rw [hq]; cases neg <;> rfl)
    have hneg : decide (signedNat neg (quanta f m) < 0) = neg := by cases neg <;> simp [signedNat, hq]
    have habs : (signedNat neg (quanta f m)).natAbs = quanta f m := by cases neg <;> simp [signedNat]
    rw [hneg, habs, hround]

end

/-! ### binary32 in binary64 (R64) -/

/-- A finite magnitude is a significand of at most 24 bits times a power of two. -/
theorem quanta_eq_significand_mul {m : Nat} (h : m < infMag binary32) :
    ∃ c e, quanta binary32 m = c * 2 ^ e ∧ c < 2 ^ 24 ∧ e ≤ 253 := by
  rw [infMag_binary32] at h
  unfold quanta
  dsimp only
  split
  · exact ⟨m, 0, by simp, by omega, by omega⟩
  · exact ⟨_, _, rfl, by omega, by omega⟩

theorem quantumRatio_eq : quantumRatio = 925 := by decide

/-- Every finite binary32 magnitude is a binary64 magnitude. -/
theorem exists_quanta_binary64 {m : Nat} (h : m < infMag binary32) :
    ∃ m' < infMag binary64, quanta binary64 m' = quanta binary32 m * 2 ^ quantumRatio := by
  obtain ⟨c, e, hq, hc, he⟩ := quanta_eq_significand_mul h
  rw [hq]
  have hr := quantumRatio_eq
  generalize quantumRatio = r at hr ⊢
  rcases Nat.eq_zero_or_pos c with rfl | hpos
  · exact ⟨0, by decide, by simp [quanta_zero_eq]⟩
  obtain ⟨hlow, hhigh⟩ := lt_log2_bounds hpos.ne'
  have hL : Nat.log2 c < 24 := (Nat.log2_lt hpos.ne').2 hc
  generalize Nat.log2 c = L at hlow hhigh hL
  have hlow' : 2 ^ 52 ≤ c * 2 ^ (52 - L) :=
    calc 2 ^ 52 = 2 ^ L * 2 ^ (52 - L) := by rw [← pow_add]; congr 1; omega
      _ ≤ c * 2 ^ (52 - L) := Nat.mul_le_mul_right _ hlow
  have hhigh' : c * 2 ^ (52 - L) ≤ 2 * 2 ^ 52 :=
    calc c * 2 ^ (52 - L) ≤ 2 ^ (L + 1) * 2 ^ (52 - L) := Nat.mul_le_mul_right _ hhigh.le
      _ = 2 * 2 ^ 52 := by rw [← pow_add, ← pow_succ']; congr 1; omega
  refine ⟨(e + 873 + L) * 2 ^ 52 + c * 2 ^ (52 - L), ?_, ?_⟩
  · have hinf : infMag binary64 = 2047 * 2 ^ 52 := by decide
    omega
  · rw [quanta_binade binary64 (.inl hlow') hhigh', Nat.mul_assoc, Nat.mul_assoc, ← pow_add, ← pow_add]
    congr 2
    omega

theorem toNat_ofNat_packPat64 {neg : Bool} {m : Nat} (h : m < infMag binary64) :
    (BitVec.ofNat 64 (packPat binary64 neg m)).toNat = packPat binary64 neg m := by
  have hm := h.trans infMag_lt_binary64
  rw [BitVec.toNat_ofNat]
  refine Nat.mod_eq_of_lt ?_
  cases neg <;> simp only [packPat, if_true, Bool.false_eq_true, if_false] <;> omega

section
variable {x : Word} (hx : isFinite x = true)
include hx

/-- The conversion to binary64 keeps sign and value. -/
theorem f2d_finite : ∃ m < infMag binary64, f2d x = BitVec.ofNat 64 (packPat binary64 (fsign x) m) ∧
    quanta binary64 m = quanta binary32 (fmag x) * 2 ^ quantumRatio := by
  obtain ⟨m, hm, hq⟩ := exists_quanta_binary64 ((isFinite_iff_fmag x).1 hx)
  obtain ⟨hnan, hinf⟩ := (isFinite_iff x).1 hx
  refine ⟨m, hm, ?_, hq⟩
  rw [f2d, hnan, hinf, ← hq]
  simpa using congrArg (fun k => BitVec.ofNat 64 (packPat binary64 (fsign x) k))
    (roundMag_exact binary64 one_pos hm.le)

theorem d2f_f2d : d2f (f2d x) = x := by
  obtain ⟨m, hm, he, hq⟩ := f2d_finite hx
  have hmag := fmag_le_infMag (isNaN_of_isFinite hx)
  have hlt := hm.trans infMag_lt_binary64
  have hround : d2f (f2d x) = roundedWord (fsign x) (quanta binary64 m) (2 ^ quantumRatio) := by
    simp only [d2f, he, toNat_ofNat_packPat64 hm, nanPat_packPat_finite infMag_lt_binary64 hm,
      infPat_packPat_finite infMag_lt_binary64 hm, magPat_packPat (f := binary64) hlt,
      signPat_packPat (f := binary64) hlt, Bool.false_eq_true, if_false, roundedWord]
  rw [hround, hq]
  exact word_ext (fsign_roundedWord ..) (by rw [fmag_roundedWord, roundMag_exact _ (by positivity) hmag])

/-- `x + x × 0` in binary64. -/
theorem dadd_f2d_dmul_zero : dadd (f2d x) (dmul (f2d x) posZero64) = f2d x := by
  obtain ⟨m, hm, he, -⟩ := f2d_finite hx
  have h0 : 0 < infMag binary64 := by decide
  have hz : posZero64.toNat = packPat binary64 false 0 := rfl
  rw [he, dmul, dadd, toNat_ofNat_packPat64 hm, hz, mulPat_zero infMag_lt_binary64 hm,
    toNat_ofNat_packPat64 h0, addPat_zero infMag_lt_binary64 hm]

theorem highPass_zero_of_isFinite : highPass posZero64 x = x := by
  rw [highPass, dadd_f2d_dmul_zero hx, d2f_f2d hx]

end

/-! ### The stage (R94) -/

/-- An infinity times zero is a NaN, and a NaN stays one. -/
theorem highPass_zero_of_not_isFinite {x : Word} (hx : isFinite x = false) : highPass posZero64 x = QNAN32 := by
  cases hn : isNaN x
  · have hi : isInf x = true := by
      by_contra hi
      simp [(isFinite_iff x).2 ⟨hn, by simpa using hi⟩] at hx
    rcases isInf_cases hi with rfl | rfl <;> decide
  · have hf2d : f2d x = QNAN64 := by rw [f2d, if_pos hn]
    rw [highPass, hf2d]
    decide

/-- A pass with BT and BTINC zero leaves both zero. -/
theorem highPassStage_zero {s : State} (hbt : s.fm.bt = posZero64) (hinc : s.fm.btinc = posZero64) :
    highPassStage s = s.setAcc (highPass posZero64 s.acc) := by
  have hsum : dadd posZero64 posZero64 = posZero64 := by decide
  have hfm : { s.fm with bt := posZero64 } = s.fm := by rw [← hbt]
  rw [highPassStage, hbt, hinc, hsum, hfm]
  rfl

/-- Settles O29: two passes with BT zero; the canonical NaN of the first is the input of the second. -/
theorem highIsInert : Obligations.HighIsInert := by
  intro s hbt hinc hhigh
  have hexec : exec .high s = .next (s.setAcc (highPass posZero64 (highPass posZero64 s.acc))) := by
    rw [exec_high_of_nonzero hhigh, highPassStage_zero hbt hinc,
      highPassStage_zero (s := s.setAcc (highPass posZero64 s.acc)) hbt hinc]
    rfl
  rw [hexec]
  refine ⟨fun h => ?_, fun h => ?_⟩
  · rw [highPass_zero_of_isFinite h, highPass_zero_of_isFinite h]
    rfl
  · rw [highPass_zero_of_not_isFinite h, highPass_zero_of_not_isFinite (by decide)]
    rfl

end Sys2Proof.Machine
end

section
/-! PROOFS. Compression with a declared control: the exponent lies between 0 and 1, so POW32 keeps a sample
above zero above zero, and sends both zeros to `+0.0` (43_sample_pipeline.md R96, 40_numerics.md R69). -/

namespace Sys2Proof.Machine

open Config

/-! ### The exponent -/

/-- A declared non-zero value normalises to at least `2^-7`. -/
theorem NORM_declared_pos {v : Int} (h0 : 1 ≤ v) (h1 : v ≤ 100) : between 0x3C000000#32 f1 (NORM v) := by
  have e1 : fquanta f1 = 2 ^ 149 := fquanta_f1
  have e100 : fquanta f100 = 100 * 2 ^ 149 := by decide
  refine NORM_between (lo' := f1) (hi' := f100) (by decide) (by decide) (by decide) (by decide)
    ?_ ?_ (by decide) (by decide)
  · rw [e1]; linarith
  · rw [e100]; linarith

/-- `1 − 0.8 c` for `c` from `2^-7` to 1: from the least exponent of R69 to `1 − 2^-8`. -/
theorem compExponent_between {p : Params} (h : between 0x3C000000#32 f1 p.compress) :
    between compExpMin 0x3F7F0000#32 (compExponent p) := by
  have hfin := isFinite_of_between (by decide) (by decide) h
  obtain ⟨hl, hh⟩ := between_quanta h
  have hprod : between 0x3B800000#32 K0_8 (fmul p.compress K0_8) := by
    have eK : fquanta K0_8 = 13421773 * 2 ^ 125 := by decide
    have e7 : fquanta 0x3C000000#32 = 2 ^ 142 := by decide
    have e8 : fquanta 0x3B800000#32 = 2 ^ 141 := by decide
    rw [e7] at hl
    rw [fquanta_f1] at hh
    refine fmul_between hfin (by decide) (by decide) (by decide) ?_ ?_ <;> rw [eK]
    · rw [e8]; linarith
    · linarith
  obtain ⟨hl', hh'⟩ := between_quanta hprod
  have hlo : fquanta compExpMin = fquanta f1 - fquanta K0_8 := by decide
  have hhi : fquanta 0x3F7F0000#32 = fquanta f1 - fquanta 0x3B800000#32 := by decide
  refine fadd_between (by decide) ?_ (by decide) (by decide) ?_ ?_
  · rw [isFinite_fneg]; exact isFinite_of_between (by decide) (by decide) hprod
  · rw [fquanta_fneg, hlo]; linarith
  · rw [fquanta_fneg, hhi]; linarith

theorem fgt0_of_fle {x y : Word} (hx : fgt0 x = true) (h : fle x y = true) : fgt0 y = true := by
  obtain ⟨-, hpos⟩ := (fgt0_iff x).1 hx
  obtain ⟨-, hy, hle⟩ := (fle_iff x y).1 h
  exact (fgt0_iff y).2 ⟨hy, hpos.trans_le hle⟩

/-- What the stage asks of its exponent. -/
structure ProperExponent (e : Word) : Prop where
  finite : isFinite e = true
  pos : fgt0 e = true
  le_one : fle e f1 = true
  not_odd : isOddInteger e = false

theorem properExponent_of_between {e : Word} (h : between compExpMin 0x3F7F0000#32 e) : ProperExponent e := by
  have hnan : isNaN e = false := ((fle_iff _ _).1 h.1).2.1
  obtain ⟨hl, hh⟩ := between_quanta h
  have hpos : 0 < fquanta e := lt_of_lt_of_le (by decide) hl
  have hlt : fquanta e < 2 ^ 149 := lt_of_le_of_lt hh (by decide)
  have hfloor : fquanta e / 2 ^ 149 = 0 := Int.ediv_eq_zero_of_lt hpos.le hlt
  exact ⟨isFinite_of_between (by decide) (by decide) h, (fgt0_iff e).2 ⟨hnan, hpos⟩,
    (fle_iff _ _).2 ⟨hnan, isNaN_f1, by rw [fquanta_f1]; exact hlt.le⟩,
    by rw [isOddInteger, hfloor]; simp⟩

theorem properExponent_compExponent {p : Params} {v : Int} (h0 : 1 ≤ v) (h1 : v ≤ 100)
    (hp : p.compress = NORM v) : ProperExponent (compExponent p) :=
  properExponent_of_between (compExponent_between (by rw [hp]; exact NORM_declared_pos h0 h1))

theorem feq0_compress_of_declared {p : Params} {v : Int} (h0 : 1 ≤ v) (h1 : v ≤ 100)
    (hp : p.compress = NORM v) : feq0 p.compress = false := by
  rw [hp]
  exact feq0_of_fgt0 (fgt0_of_fle (by decide) (NORM_declared_pos h0 h1).1)

/-! ### POW32 of a sample -/

section
variable {x e : Word} (he : ProperExponent e)
include he

/-- By (P-unit), a power of a value up to 1 is no less than the value, and one of a value from 1 on no less
than 1. -/
theorem fgt0_pow32 (hx : fgt0 x = true) : fgt0 (units.pow32 x e) = true := by
  obtain ⟨hbelow, habove⟩ := platform.powOk.unit
  obtain ⟨hnan, -⟩ := (fgt0_iff x).1 hx
  rcases le_total (fquanta x) (fquanta f1) with h | h
  · have hle : fle x f1 = true := (fle_iff _ _).2 ⟨hnan, isNaN_f1, h⟩
    exact fgt0_of_fle hx (hbelow x e he.pos he.le_one (posZero_le_of_fgt0 hx) hle).1
  · have hge : fle f1 x = true := (fle_iff _ _).2 ⟨isNaN_f1, hnan, h⟩
    exact fgt0_of_fle (by decide) (habove x e he.pos he.le_one hge).1

/-- By (P-zero), since the exponent is no odd integer. -/
theorem pow32_of_feq0 (hx : feq0 x = true) : units.pow32 x e = posZero := by
  obtain ⟨hpos, hneg⟩ := platform.powOk.zero.1 e he.finite he.pos he.not_odd
  rcases feq0_cases hx with rfl | rfl
  · exact hpos
  · exact hneg

end

/-! ### The stage -/

theorem fgt0_iff_fsign (x : Word) :
    fgt0 x = true ↔ isNaN x = false ∧ fsign x = false ∧ feq0 x = false := by
  rw [fgt0_iff, fquanta_pos_iff]

section
variable {p : Params} {x : Word} (hp : feq0 p.compress = false)
include hp

theorem compValue_of_fgt0 (u : ElemUnits) (hx : fgt0 x = true) :
    compValue u p x = u.pow32 x (compExponent p) := by
  simp [compValue, hp, hx]

theorem compValue_of_not_fgt0 (u : ElemUnits) (hx : fgt0 x = false) :
    compValue u p x = fneg (u.pow32 (fneg x) (compExponent p)) := by
  simp [compValue, hp, hx]

variable (he : ProperExponent (compExponent p))
include he

theorem compValue_of_feq0 (hx : feq0 x = true) : compValue units p x = negZero := by
  have hgt : fgt0 x = false := by rcases feq0_cases hx with rfl | rfl <;> decide
  rw [compValue_of_not_fgt0 hp units hgt, pow32_of_feq0 he (by rw [feq0_fneg, hx])]
  decide

/-- The positive arm for a sample above zero; the negated power of the negated sample for one below. -/
theorem compValue_sign (hx : isFinite x = true) (hx0 : feq0 x = false) :
    isNaN (compValue units p x) = false ∧ feq0 (compValue units p x) = false ∧
      fsign (compValue units p x) = fsign x := by
  have hnan := isNaN_of_isFinite hx
  cases hs : fsign x
  · have hgt : fgt0 x = true := (fgt0_iff_fsign x).2 ⟨hnan, hs, hx0⟩
    obtain ⟨hn, hs', h0⟩ := (fgt0_iff_fsign _).1 (fgt0_pow32 he hgt)
    rw [compValue_of_fgt0 hp units hgt]
    exact ⟨hn, h0, hs'⟩
  · have hgt : fgt0 (fneg x) = true :=
      (fgt0_iff_fsign _).2 (by simp [isNaN_fneg, fsign_fneg, feq0_fneg, hnan, hs, hx0])
    have hngt : fgt0 x = false := Bool.eq_false_iff.2 fun h => by simp [fgt0_iff_fsign, hs] at h
    obtain ⟨hn, hs', h0⟩ := (fgt0_iff_fsign _).1 (fgt0_pow32 he hgt)
    rw [compValue_of_not_fgt0 hp units hngt, isNaN_fneg, feq0_fneg, fsign_fneg, hs']
    exact ⟨hn, h0, rfl⟩

end

/-- Settles O32: `compValue_sign` at the exponent of a declared control. -/
theorem compressionKeepsSign : Obligations.CompressionKeepsSign := fun s _ h0 h1 hp hx hx0 =>
  ⟨_, exec_comp s, compValue_sign (feq0_compress_of_declared h0 h1 hp)
    (properExponent_compExponent h0 h1 hp) hx hx0⟩

/-- Settles O33: both zeros take the negative arm, and their power is `+0.0`. -/
theorem compressedSilenceIsNegativeZero : Obligations.CompressedSilenceIsNegativeZero := by
  intro s v h0 h1 hp hx
  rw [exec_comp, compValue_of_feq0 (feq0_compress_of_declared h0 h1 hp)
    (properExponent_compExponent h0 h1 hp) hx]
  rfl

end Sys2Proof.Machine
end

section
/-! PROOFS. The table lookup (44_sine_lut.md R104 to R106): what the fractional part, the position, the index
and the weight of a finite operand are, in quanta. -/

namespace Sys2Proof.Machine

/-! ### The fractional part -/

/-- The sum of two finite values that is not negative, and is not made of two negative zeros, is one rounding
of a magnitude. -/
theorem fadd_of_nonneg {a b : Word} (ha : isFinite a = true) (hb : isFinite b = true)
    (hs : (fsign a && fsign b) = false) (h : 0 ≤ fquanta a + fquanta b) :
    fadd a b = roundedWord false (fquanta a + fquanta b).toNat 1 := by
  obtain ⟨han, hai⟩ := (isFinite_iff a).1 ha
  obtain ⟨hbn, hbi⟩ := (isFinite_iff b).1 hb
  rcases h.eq_or_lt with hz | hpos
  · simp [fadd_eq, han, hai, hbn, hbi, hs, ← hz, roundedWord, roundMag_zero, ofNat_packPat_zero]
  · have habs : (fquanta a + fquanta b).natAbs = (fquanta a + fquanta b).toNat := by omega
    simp [fadd_eq, han, hai, hbn, hbi, hpos.ne', h.not_gt, habs]

theorem fquanta_of_nonneg {x : Word} (hs : fsign x = false) : fquanta x = quanta binary32 (fmag x) := by
  rw [fquanta_eq_signedNat, hs, signedNat_false]

theorem fquanta_f4095 : fquanta f4095 = 4095 * 2 ^ 149 := by decide

/-- What a magnitude has beyond a whole number is a binary32 magnitude again. -/
theorem quanta_roundMag_fraction (m : Nat) :
    quanta binary32 (roundMag binary32 (quanta binary32 m % 2 ^ 149) 1) = quanta binary32 m % 2 ^ 149 := by
  obtain ⟨r, hr⟩ : ∃ r, quanta binary32 m % 2 ^ 149 = r := ⟨_, rfl⟩
  have hlt : r < 2 ^ 149 := hr ▸ Nat.mod_lt _ (by positivity)
  have hle : r ≤ quanta binary32 m := hr ▸ Nat.mod_le ..
  rw [hr]
  refine quanta_roundMag_of_dvd (by omega) ?_
  rcases Nat.eq_zero_or_pos (Nat.log2 r - 23) with hk | hk
  · rw [hk, pow_zero]
    exact one_dvd r
  · have hr0 : r ≠ 0 := by rintro rfl; simp at hk
    have hlog : Nat.log2 r < 149 := (Nat.log2_lt hr0).2 hlt
    have hbinade : 2 ^ 23 * 2 ^ (Nat.log2 r - 23) ≤ quanta binary32 m := by
      rw [← pow_add, Nat.add_sub_cancel' (by omega)]
      exact (Nat.log2_self_le hr0).trans hle
    have hdvd := (dvd_quanta_or_lt (Nat.log2 r - 23) m).resolve_right hbinade.not_gt
    conv_rhs => rw [← hr]
    exact (Nat.dvd_mod_iff (pow_dvd_pow 2 (by omega))).2 hdvd

section
variable {x : Word} (hx : isFinite x = true)
include hx

theorem fsign_ffloor : fsign (ffloor x) = fsign x := by
  rw [ffloor_finite hx, fsign_roundedWord]

theorem fquanta_ffloor : fquanta (ffloor x) = fquanta x / 2 ^ 149 * 2 ^ 149 := by
  have h := (ffloor_spec hx).2
  rw [fvalue, floor_fvalue, div_eq_iff (by positivity)] at h
  exact_mod_cast h

/-- The fractional part is one rounding of the quanta beyond a whole number; a zero one is `+0.0`. -/
theorem lutiFrac_eq : lutiFrac x = roundedWord false (fquanta x % 2 ^ 149).toNat 1 := by
  have hsum : fquanta x + fquanta (fneg (ffloor x)) = fquanta x % 2 ^ 149 := by
    rw [fquanta_fneg, fquanta_ffloor hx]
    omega
  rw [lutiFrac, fsub, fadd_of_nonneg hx, hsum]
  · rw [isFinite_fneg, (ffloor_spec hx).1]
  · rw [fsign_fneg, fsign_ffloor hx, Bool.and_not_self]
  · omega

/-- The upper bound is met: the fraction of a small negative value rounds up to `1.0` (R104 (a)). -/
theorem lutiFrac_between : between posZero f1 (lutiFrac x) := by
  rw [lutiFrac_eq hx]
  refine between_packPat_roundMag one_pos (by decide) (by decide) ?_ ?_
  · rw [fquanta_posZero, zero_mul]
    exact Int.natCast_nonneg _
  · rw [fquanta_f1, signedNat_false]
    omega

section
variable (hs : fsign x = false)
include hs

/-- The fractional part of a value that is not negative is exact. -/
theorem fquanta_lutiFrac_of_nonneg : fquanta (lutiFrac x) = fquanta x % 2 ^ 149 := by
  have hnat : (fquanta x % 2 ^ 149).toNat = quanta binary32 (fmag x) % 2 ^ 149 := by
    rw [fquanta_of_nonneg hs]
    omega
  rw [lutiFrac_eq hx, fquanta_roundedWord, signedNat_false, hnat, quanta_roundMag_fraction,
    fquanta_of_nonneg hs]
  norm_cast

variable (hle : fquanta x ≤ 4095 * 2 ^ 149)
include hle

theorem f2i_of_nonneg : f2i x = fquanta x / 2 ^ 149 := by
  rw [fquanta_of_nonneg hs] at hle ⊢
  rw [f2i_finite (isNaN_of_isFinite hx), hs, signedNat_false]
  omega

theorem i2f_f2i_of_nonneg : i2f (f2i x) = ffloor x := by
  have hfloor := signedNat_floorMag x
  rw [hs, signedNat_false, floor_fvalue, ← f2i_of_nonneg hx hs hle] at hfloor
  have hneg : decide ((floorMag x : Int) < 0) = false := by simp
  rw [i2f_eq, ffloor_finite hx, hs, ← hfloor, Int.natAbs_natCast, hneg]

end

/-! ### Position, index and weight (R104, R105) -/

theorem lutiPos_between : between posZero f4095 (lutiPos x) := by
  have hfrac := lutiFrac_between hx
  obtain ⟨hlo, hhi⟩ := between_quanta hfrac
  rw [fquanta_posZero] at hlo
  rw [fquanta_f1] at hhi
  refine fmul_between (isFinite_of_between (by decide) (by decide) hfrac) (by decide) (by decide) (by decide)
    ?_ ?_ <;> simp only [fquanta_posZero, fquanta_f4095] <;> omega

theorem isFinite_lutiPos : isFinite (lutiPos x) = true :=
  isFinite_of_between (by decide) (by decide) (lutiPos_between hx)

theorem fsign_lutiPos : fsign (lutiPos x) = false := by
  rw [lutiPos, fmul_finite (isFinite_of_between (by decide) (by decide) (lutiFrac_between hx)) (by decide),
    fsign_roundedWord, lutiFrac_eq hx, fsign_roundedWord]
  decide

theorem fquanta_lutiPos_le : fquanta (lutiPos x) ≤ 4095 * 2 ^ 149 :=
  (between_quanta (lutiPos_between hx)).2.trans_eq fquanta_f4095

theorem f2i_lutiPos : f2i (lutiPos x) = fquanta (lutiPos x) / 2 ^ 149 :=
  f2i_of_nonneg (isFinite_lutiPos hx) (fsign_lutiPos hx) (fquanta_lutiPos_le hx)

theorem f2i_lutiPos_range : 0 ≤ f2i (lutiPos x) ∧ f2i (lutiPos x) ≤ 4095 := by
  have hlo := (between_quanta (lutiPos_between hx)).1
  have hhi := fquanta_lutiPos_le hx
  rw [fquanta_posZero] at hlo
  rw [f2i_lutiPos hx]
  omega

/-- The weight is the fractional part of the position. -/
theorem fsub_lutiPos_i2f : fsub (lutiPos x) (i2f (f2i (lutiPos x))) = lutiFrac (lutiPos x) := by
  rw [i2f_f2i_of_nonneg (isFinite_lutiPos hx) (fsign_lutiPos hx) (fquanta_lutiPos_le hx), lutiFrac]

theorem lutiFrac_lutiPos_lt_one : flt (lutiFrac (lutiPos x)) f1 = true := by
  have hnan := ((fle_iff _ _).1 (lutiFrac_between (isFinite_lutiPos hx)).1).2.1
  refine (fgt_iff _ _).2 ⟨by decide, hnan, ?_⟩
  rw [fquanta_lutiFrac_of_nonneg (isFinite_lutiPos hx) (fsign_lutiPos hx), fquanta_f1]
  omega

/-- Index 4095 leaves no room above the largest position. -/
theorem lutiPos_of_index_4095 (h : f2i (lutiPos x) = 4095) : lutiPos x = f4095 := by
  have hle := fquanta_lutiPos_le hx
  rw [f2i_lutiPos hx] at h
  have hq : fquanta (lutiPos x) = fquanta f4095 := by
    rw [fquanta_f4095]
    omega
  have hs := fsign_lutiPos hx
  have hm := fmag_le_infMag (isNaN_of_isFinite (isFinite_lutiPos hx))
  rw [fquanta_of_nonneg hs, fquanta_of_nonneg (x := f4095) (by decide),
    Int.natCast_inj] at hq
  refine word_ext (hs.trans (by decide)) ?_
  rw [← roundMag_exact binary32 one_pos hm, hq]
  exact roundMag_exact binary32 one_pos (by decide)

end

/-- Settles O37: the weight is the fractional part of the position, and so below `1.0`. -/
theorem lutiIndicesStayInRom : Obligations.LutiIndicesStayInRom := by
  intro x hx
  obtain ⟨hlo, hhi⟩ := lutiPos_between hx
  obtain ⟨hi0, hi4095⟩ := f2i_lutiPos_range hx
  have hweight := fsub_lutiPos_i2f hx
  have hw0 := (lutiFrac_between (isFinite_lutiPos hx)).1
  refine ⟨hlo, hhi, hi0, hi4095, (congrArg (fle posZero) hweight).trans hw0,
    (congrArg (flt · f1) hweight).trans (lutiFrac_lutiPos_lt_one hx), fun h => ?_⟩
  have hpos := lutiPos_of_index_4095 hx h
  exact ⟨hpos, hweight.trans ((congrArg lutiFrac hpos).trans (by decide))⟩

/-! ### The lookup -/

theorem exec_luti (s : State) : exec .luti s = .next (s.setAcc (lutiValue s.rom s.acc)) := rfl

theorem lutiValue_of_not_isFinite {x : Word} (rom : List Word) (hx : isFinite x = false) :
    lutiValue rom x = QNAN32 := by
  refine if_pos ?_
  by_contra h
  rw [(isFinite_iff x).2 (by simpa using h)] at hx
  cases hx

theorem lutiValue_of_isFinite {x : Word} (rom : List Word) (hx : isFinite x = true) : lutiValue rom x =
    fadd (fmul (fsub f1 (lutiWeight x)) (romWord rom (lutiIndex x)))
      (fmul (lutiWeight x) (romWord rom (lutiNext (lutiIndex x)))) := by
  obtain ⟨hn, hi⟩ := (isFinite_iff x).1 hx
  simp [lutiValue, hn, hi]

theorem getElem?_eq_romWord {rom : List Word} {i : Nat} (h : i < rom.length) :
    rom[i]? = some (romWord rom i) := by
  rw [romWord, List.getD_eq_getElem _ _ h, List.getElem?_eq_getElem h]

theorem lutiIndex_lt {x : Word} (hx : isFinite x = true) : lutiIndex x < 4096 := by
  have := f2i_lutiPos_range hx
  rw [lutiIndex]
  omega

/-- Settles O36: both indices lie inside the ROM, the upper one because it is taken modulo its length. -/
theorem lutiLooksUp : Obligations.LutiLooksUp := by
  intro s hrom
  refine ⟨fun hx => ?_, fun hx => ⟨romWord s.rom (lutiIndex s.acc),
    romWord s.rom (lutiNext (lutiIndex s.acc)), getElem?_eq_romWord ?_, getElem?_eq_romWord ?_, ?_⟩⟩
  · rw [exec_luti, lutiValue_of_not_isFinite s.rom hx]
    rfl
  · rw [hrom]
    exact lutiIndex_lt hx
  · rw [hrom]
    exact Nat.mod_lt _ (by decide)
  · rw [exec_luti, lutiValue_of_isFinite s.rom hx]
    rfl

/-! ### Periodicity (R106) -/

/-- Finite operands a whole number apart have the same fractional part, whatever their signs. -/
theorem lutiFrac_eq_of_fvalue_eq_add {x y : Word} {k : Int} (hx : isFinite x = true) (hy : isFinite y = true)
    (h : fvalue y = fvalue x + k) : lutiFrac y = lutiFrac x := by
  have hq : fquanta y = fquanta x + k * 2 ^ 149 := by
    rw [fvalue, fvalue, div_eq_iff (by positivity), add_mul, div_mul_cancel₀ _ (by positivity)] at h
    exact_mod_cast h
  rw [lutiFrac_eq hx, lutiFrac_eq hy, hq, Int.add_mul_emod_self_right]

/-- The lookup reads a finite operand through its fractional part only. -/
theorem lutiValue_congr {x y : Word} (rom : List Word) (hx : isFinite x = true) (hy : isFinite y = true)
    (h : lutiFrac y = lutiFrac x) : lutiValue rom y = lutiValue rom x := by
  simp only [lutiValue_of_isFinite rom hx, lutiValue_of_isFinite rom hy, lutiWeight, lutiIndex, lutiPos, h]

/-- Settles O38: equal fractional parts look up the same word. -/
theorem lutiIsPeriodic : Obligations.LutiIsPeriodic := fun _ _ _ rom hx hy h =>
  lutiValue_congr rom hx hy (lutiFrac_eq_of_fvalue_eq_add hx hy h)

end Sys2Proof.Machine
end

section
/-! PROOFS. Which step comes next, what it needs to be enabled, and that there always is one
(60_exceptions.md R107, R108, R111, R112). -/

namespace Sys2Proof.Machine

open Sys2Proof.Config (Action)

/-! ### The command a step runs -/

theorem serveCommand_of_decode {w : Command} {i : Instr} (h : decode (.command w) = .ok i) (p : Port)
    (s : State) : serveCommand p w s = exec i (s.setServing p) := by
  rw [serveCommand, h]

/-- Settles O7: the step serves the waiting word, and serving it is `exec` of what it decodes to. -/
theorem stepRunsDecodedCommand : Obligations.StepRunsDecodedCommand :=
  ⟨fun s _ _ hA hb hw hi => (step_serveCommand_A hA hb hw).trans (serveCommand_of_decode hi .A s),
    fun s _ _ hC hw hi => (step_serveCommand_C hC hw).trans (serveCommand_of_decode hi .C s)⟩

/-- A row of 128 bits is a command word. -/
theorem decode_of_decodeTableWord {w : Nat} {i : Instr} (h : decodeTableWord 128 w = some i) :
    decode (.command (BitVec.ofNat 128 w)) = .ok i := by
  rw [decodeTableWord, if_neg (by omega), tableCode, if_neg (by omega)] at h
  cases hd : decode (.command (BitVec.ofNat 128 w)) <;> rw [hd] at h <;> cases h
  rfl

/-- Settles O8: the placed word waits in PENDA with nothing else enabled, as in the first half of O7. -/
theorem placedCommandRunsNext : Obligations.PlacedCommandRunsNext := fun s w i h =>
  stepRunsDecodedCommand.1 (s.withFetchWord 128 w) _ i ⟨rfl, rfl, rfl⟩ rfl rfl (decode_of_decodeTableWord h)

/-! ### When an action is enabled, and what it then does (R111, 10_state.md R22) -/

section
variable {s : State}

theorem enabled_presentA_iff : enabled s .presentA = true ↔ s.portA.pend = none ∧ s.portA.host ≠ [] := by
  simp [enabled]

theorem enabled_presentC_iff : enabled s .presentC = true ↔ s.portC.pend = none ∧ s.portC.host ≠ [] := by
  simp [enabled]

theorem enabled_platform_iff : enabled s .platform = true ↔ s.platform ≠ [] := by
  simp [enabled]

theorem enabled_serveC_iff : enabled s .serveC = true ↔ s.portC.pend ≠ none := by
  simp [enabled, Option.isSome_iff_ne_none]

theorem enabled_serveA_iff : enabled s .serveA = true ↔ s.seq.busy = true ∨ s.portA.pend ≠ none := by
  simp [enabled, Option.isSome_iff_ne_none]

theorem present_eq {p : Port} {w : Command} {ws : List Command} (hp : (s.port p).pend = none)
    (hh : (s.port p).host = w :: ws) :
    present p s = s.setPort p { (s.port p) with pend := some w, host := ws } := by
  simp only [present, hp, hh]

theorem platformStep_store {a : CellAddr} {v : Word} {es : List PlatformEvent}
    (he : s.platform = .store a v :: es) :
    platformStep s = (s.setMem (memWrite s.mem a v)).setPlatform es := by
  simp only [platformStep, he]

theorem platformStep_hardwareReset {es : List PlatformEvent} (he : s.platform = .hardwareReset :: es) :
    platformStep s = (hardwareReset s).setPlatform es := by
  simp only [platformStep, he]

theorem serveC_of_pend {w : Command} (hw : s.portC.pend = some w) : serveC s = serveCommand .C w s := by
  rw [serveC, hw]

theorem serveA_end (hb : s.seq.busy = true) (hf : s.seq.fidx = s.seq.fcnt) :
    serveA s = .next (endProcess s) := by
  rw [serveA, if_pos hb, if_pos hf]

theorem serveA_sample (hb : s.seq.busy = true) (hf : s.seq.fidx ≠ s.seq.fcnt) :
    serveA s = sampleStep s := by
  rw [serveA, if_pos hb, if_neg hf]

theorem serveA_of_pend {w : Command} (hb : s.seq.busy = false) (hw : s.portA.pend = some w) :
    serveA s = serveCommand .A w s := by
  simp only [serveA, hb, hw, Bool.false_eq_true, if_false]

/-- With nothing enabled no agent has anything to do. -/
theorem idle_of_not_enabled (h : ∀ a, enabled s a = false) : s.seq.busy = false ∧ s.portA.pend = none ∧
    s.portA.host = [] ∧ s.portC.pend = none ∧ s.portC.host = [] ∧ s.platform = [] := by
  have h' (a : Action) : ¬ enabled s a = true := by simp [h a]
  obtain ⟨hbusy, hA⟩ := not_or.1 (mt enabled_serveA_iff.2 (h' .serveA))
  have hA := not_not.1 hA
  have hC := not_not.1 (mt enabled_serveC_iff.2 (h' .serveC))
  have hhostA := not_not.1 fun hne => h' .presentA (enabled_presentA_iff.2 ⟨hA, hne⟩)
  have hhostC := not_not.1 fun hne => h' .presentC (enabled_presentC_iff.2 ⟨hC, hne⟩)
  have hplatform := not_not.1 (mt enabled_platform_iff.2 (h' .platform))
  exact ⟨Bool.eq_false_of_not_eq_true hbusy, hA, hhostA, hC, hhostC, hplatform⟩

end

/-- Settles O10: an idle step by `idle_of_not_enabled`; else each enabled action does what its equation says,
from `s` with the turn `n` the arbiter left. -/
theorem everyStepIsAnEnabledOne : Obligations.EveryStepIsAnEnabledOne := by
  intro s t h
  rcases step_cases s with ⟨hidle, hstep⟩ | ⟨a, s', ha, hs, hstep⟩
  · exact .inl ⟨Host.Outcome.next.inj (h.symm.trans hstep), idle_of_not_enabled hidle⟩
  refine .inr ⟨s', hs, ?_⟩
  replace h : takeAction a s' = .next t := hstep.symm.trans h
  obtain ⟨n, rfl⟩ : ∃ n, s' = s.setTurn n := by
    rcases hs with rfl | rfl
    · exact ⟨s'.turn, rfl⟩
    · exact ⟨s.turn + 1, rfl⟩
  cases a with
  | presentA =>
    obtain ⟨hp, hh⟩ := enabled_presentA_iff.1 ha
    obtain ⟨w, ws, hw⟩ := List.exists_cons_of_ne_nil hh
    obtain rfl := Host.Outcome.next.inj h
    exact .inr <| .inr <| .inr <| .inr <| .inl ⟨w, ws, hp, hw, present_eq (p := .A) hp hw⟩
  | presentC =>
    obtain ⟨hp, hh⟩ := enabled_presentC_iff.1 ha
    obtain ⟨w, ws, hw⟩ := List.exists_cons_of_ne_nil hh
    obtain rfl := Host.Outcome.next.inj h
    exact .inr <| .inr <| .inr <| .inr <| .inr <| .inl ⟨w, ws, hp, hw, present_eq (p := .C) hp hw⟩
  | platform =>
    obtain ⟨e, es, he⟩ := List.exists_cons_of_ne_nil (enabled_platform_iff.1 ha)
    obtain rfl := Host.Outcome.next.inj h
    cases e with
    | store a v =>
      exact .inr <| .inr <| .inr <| .inr <| .inr <| .inr <| .inl ⟨a, v, es, he, platformStep_store he⟩
    | hardwareReset =>
      exact .inr <| .inr <| .inr <| .inr <| .inr <| .inr <| .inr ⟨es, he, platformStep_hardwareReset he⟩
  | serveC =>
    obtain ⟨w, hw⟩ := Option.ne_none_iff_exists'.1 (enabled_serveC_iff.1 ha)
    exact .inl ⟨w, hw, (serveC_of_pend (s := s.setTurn n) hw).symm.trans h⟩
  | serveA =>
    cases hb : s.seq.busy with
    | true =>
      by_cases hf : s.seq.fidx = s.seq.fcnt
      · have ht := (serveA_end (s := s.setTurn n) hb hf).symm.trans h
        exact .inr <| .inr <| .inr <| .inl ⟨rfl, hf, (Host.Outcome.next.inj ht).symm⟩
      · exact .inr <| .inr <| .inl ⟨rfl, hf, (serveA_sample (s := s.setTurn n) hb hf).symm.trans h⟩
    | false =>
      obtain ⟨w, hw⟩ := Option.ne_none_iff_exists'.1 ((enabled_serveA_iff.1 ha).resolve_left (by simp [hb]))
      exact .inr <| .inl ⟨w, hw, rfl, (serveA_of_pend (s := s.setTurn n) hb hw).symm.trans h⟩

/-! ### Every action answers a next state (R107, R108) -/

/-- `t` agrees with `s` on port C, the platform's coming events and the arbiter's turn. -/
structure LeavesPortC (s t : State) : Prop where
  portC : t.portC = s.portC
  platform : t.platform = s.platform
  turn : t.turn = s.turn

theorem serveCommand_A_next (w : Command) (s : State) :
    ∃ t, serveCommand .A w s = .next t ∧ LeavesPortC s t := by
  rcases serveCommand_cases .A w s with ⟨status, value, str, e⟩ | ⟨-, id, v, -, e⟩ | ⟨-, id, v, -, e⟩ |
    ⟨-, -, e⟩ | ⟨-, src, dst, n, -, e⟩
  all_goals exact ⟨_, e, rfl, rfl, rfl⟩

/-- Port A's step: a sample, the end of a PROCESS, a command, or none to take. -/
theorem serveA_next (s : State) : ∃ t, serveA s = .next t ∧ LeavesPortC s t := by
  cases hb : s.seq.busy with
  | true =>
    by_cases hf : s.seq.fidx = s.seq.fcnt
    · exact ⟨_, serveA_end hb hf, rfl, rfl, rfl⟩
    · exact ⟨_, (serveA_sample hb hf).trans (sampleStep_eq s), rfl, rfl, rfl⟩
  | false =>
    cases hw : s.portA.pend with
    | none => exact ⟨s, by simp [serveA, hb, hw], rfl, rfl, rfl⟩
    | some w => rw [serveA_of_pend hb hw]; exact serveCommand_A_next w s

/-- Port C's step with a command waiting answers it. -/
theorem serveC_answers {s : State} {w : Command} (hw : s.portC.pend = some w) :
    ∃ t r, serveC s = .next t ∧ t.portC.pend = none ∧ t.portC.rsp = s.portC.rsp ++ [r] := by
  obtain ⟨par, strbuf, r, ht, -⟩ := serveCommand_C w s
  exact ⟨_, r, (serveC_of_pend hw).trans ht, rfl, rfl⟩

theorem takeAction_next (a : Action) (s : State) : ∃ t, takeAction a s = .next t := by
  cases a with
  | presentA => exact ⟨present .A s, rfl⟩
  | presentC => exact ⟨present .C s, rfl⟩
  | platform => exact ⟨platformStep s, rfl⟩
  | serveC =>
    cases hw : s.portC.pend with
    | none => exact ⟨s, by simp [takeAction, serveC, hw]⟩
    | some w => exact (serveC_answers hw).imp fun _ ⟨_, ht, _⟩ => ht
  | serveA => exact (serveA_next s).imp fun _ => And.left

/-- Settles O11: an idle step answers the state itself, and every action answers one. -/
theorem stepNeverStops : Obligations.StepNeverStops := by
  intro s
  rcases step_cases s with ⟨-, hstep⟩ | ⟨a, s', -, -, hstep⟩
  · exact ⟨s, hstep⟩
  · rw [hstep]; exact takeAction_next a s'

/-! ### Port C is served in the end (R112) -/

/-- An enabled action is taken at once, or the choice is contested, and then the arbiter takes it if it
prefers it. -/
theorem step_of_enabled {s : State} {a : Action} (ha : enabled s a = true) :
    step s = takeAction a s ∨
      ∃ b, step s = takeAction b (s.setTurn (s.turn + 1)) ∧ (Config.arbiter.prefer s.turn = a → b = a) := by
  have hmem := (mem_enabledActions s a).2 ha
  rw [step, nextStep, chooseAction]
  rcases he : enabledActions s with _ | ⟨b, _ | ⟨c, cs⟩⟩ <;> rw [he] at hmem
  · cases hmem
  · rw [List.mem_singleton.1 hmem]; exact .inl rfl
  · exact .inr ⟨_, rfl, fun hpref => by rw [hpref, if_pos hmem]⟩

/-- With a command waiting on port C and no platform event to come, an action other than port C's leaves
port C as it is. -/
theorem takeAction_leavesPortC {s : State} {w : Command} {a : Action} (hw : s.portC.pend = some w)
    (hp : s.platform = []) (ha : a ≠ .serveC) : ∃ t, takeAction a s = .next t ∧ LeavesPortC s t := by
  cases a with
  | presentA =>
    refine ⟨present .A s, rfl, ?_⟩
    unfold present
    split <;> exact ⟨rfl, rfl, rfl⟩
  | presentC => exact ⟨s, by simp [takeAction, present, hw], rfl, rfl, rfl⟩
  | platform => exact ⟨s, by simp [takeAction, platformStep, hp], rfl, rfl, rfl⟩
  | serveC => exact absurd rfl ha
  | serveA => exact serveA_next s

/-- Some number of steps leads from `s` to a state in which the command on port C has been answered. -/
def AnswersPortC (s : State) : Prop :=
  ∃ k t r, core.run k s = .next t ∧ t.portC.pend = none ∧ t.portC.rsp = s.portC.rsp ++ [r]

/-- Port C's own step answers it, whatever the arbiter's turn. -/
theorem answersPortC_of_serveC {s : State} {w : Command} {n : Nat} (hw : s.portC.pend = some w)
    (hstep : step s = takeAction .serveC (s.setTurn n)) : AnswersPortC s := by
  obtain ⟨t, r, ht, hpend, hrsp⟩ := serveC_answers (s := s.setTurn n) hw
  exact ⟨1, t, r, (run_succ rfl).trans (hstep.trans ht), hpend, hrsp⟩

/-- A run that begins with a step to `m` goes on from `m`. -/
theorem run_of_step {M : Host.Core} {k : Nat} {s m : M.State} (h : M.step s = .next m) :
    M.run (k + 1) s = M.run k m := by
  rw [Host.Core.run, h]

/-- A step that leaves port C as it is can come first. -/
theorem AnswersPortC.of_step {s m : State} (h : AnswersPortC m) (hstep : step s = .next m)
    (hC : m.portC = s.portC) : AnswersPortC s := by
  obtain ⟨k, t, r, hrun, hpend, hrsp⟩ := h
  exact ⟨k + 1, t, r, (run_of_step hstep).trans hrun, hpend, hC ▸ hrsp⟩

/-- With a command waiting on port C and no platform event to come, the step serves port C, or the arbiter
has turned port C down in a contested choice, and port C still waits. -/
theorem step_of_pend_C {s : State} {w : Command} (hw : s.portC.pend = some w) (hp : s.platform = []) :
    (∃ n, step s = takeAction .serveC (s.setTurn n)) ∨
      ∃ m, step s = .next m ∧ LeavesPortC (s.setTurn (s.turn + 1)) m ∧
        Config.arbiter.prefer s.turn ≠ .serveC := by
  have ha : enabled s .serveC = true := enabled_serveC_iff.2 (Option.ne_none_iff_exists'.2 ⟨w, hw⟩)
  rcases step_of_enabled ha with hstep | ⟨b, hstep, hpref⟩
  · exact .inl ⟨s.turn, hstep⟩
  by_cases hb : b = .serveC
  · exact .inl ⟨s.turn + 1, hb ▸ hstep⟩
  · obtain ⟨m, hm, hleaves⟩ := takeAction_leavesPortC (s := s.setTurn (s.turn + 1)) hw hp hb
    exact .inr ⟨m, hstep.trans hm, hleaves, mt hpref hb⟩

/-- By induction on how many contested choices lie before the one at which the arbiter prefers port C. -/
theorem answersPortC_of_prefer {d : Nat} {s : State} {w : Command} (hw : s.portC.pend = some w)
    (hp : s.platform = []) (hpref : Config.arbiter.prefer (s.turn + d) = .serveC) : AnswersPortC s := by
  induction d generalizing s with
  | zero =>
    rcases step_of_pend_C hw hp with ⟨n, hstep⟩ | ⟨m, -, -, hne⟩
    · exact answersPortC_of_serveC hw hstep
    · exact absurd hpref hne
  | succ d ih =>
    rcases step_of_pend_C hw hp with ⟨n, hstep⟩ | ⟨m, hstep, hleaves, -⟩
    · exact answersPortC_of_serveC hw hstep
    · have hturn : m.turn + d = s.turn + (d + 1) := by
        rw [hleaves.turn, State.setTurn_turn]; omega
      exact (ih (hleaves.portC ▸ hw) (hleaves.platform.trans hp) (hturn ▸ hpref)).of_step hstep hleaves.portC

/-- Settles O58: a fair arbiter prefers port C at some turn from the present one on. -/
theorem portCIsEventuallyAnswered : Obligations.PortCIsEventuallyAnswered := by
  intro s w hw hp
  obtain ⟨m, hm, hpref⟩ := Config.arbiter.fair .serveC s.turn
  obtain ⟨d, rfl⟩ := Nat.exists_eq_add_of_le hm
  exact answersPortC_of_prefer hw hp hpref

end Sys2Proof.Machine
end

section
/-! PROOFS. Hardware reset as an event (70_reset_and_hazards.md R122, R126). -/

namespace Sys2Proof.Machine

/-- With only the platform able to act and an event to come, the step is the platform's. -/
theorem step_onlyPlatform {s : State} {e : PlatformEvent} {es : List PlatformEvent}
    (he : s.platform = e :: es) (hb : s.seq.busy = false) (hA : s.portA.pend = none) (hhostA : s.portA.host = [])
    (hC : s.portC.pend = none) (hhostC : s.portC.host = []) : step s = .next (platformStep s) := by
  refine step_single (a := .platform) ?_
  simp [enabledActions, enabled, he, hb, hA, hhostA, hC, hhostC]

/-- Settles O48: what the event writes holds its value of R26, the rest is kept, and alone it is the
platform's step. -/
theorem hardwareResetEvent : Obligations.HardwareResetEvent := by
  intro s
  obtain ⟨hpar, hfm, -, hstrbuf, hbusy, hpendA, hpendC⟩ := resetState
  refine ⟨hpar, hfm, hstrbuf, hbusy, hpendA, hpendC, rfl, rfl, rfl, rfl, ?_⟩
  intro es he hb hA hhostA hC hhostC
  rw [step_onlyPlatform he hb hA hhostA hC hhostC, platformStep_hardwareReset he]
  rfl

end Sys2Proof.Machine
end
